-- ==== Sys2Proof/Word.lean ====
section
/-! DEFINITION. The word types of the controller (00_scope R17): registers are 32 bits on the host bus, wire data are
bytes, and Param1, Param2, word addresses and the CRC are 16 bits. -/

namespace Sys2Proof

/-- A byte: wire data, Count, OpCode, Mode, segment lengths, the status byte (00_scope R17). -/
abbrev Byte := BitVec 8

/-- A 16-bit value: Param1, Param2, word addresses, the CRC (00_scope R17). -/
abbrev Half := BitVec 16

/-- A 32-bit host register or command word (00_scope R17, 30_encoding R95). -/
abbrev Word := BitVec 32

end Sys2Proof
end

