-- ==== Sys2Proof/Syntax.lean ====
section
/-! DEFINITION. The commands: one constructor per row of spec/opcode_table.json (30_encoding R110). A command word holds no
operand value (30_encoding R113); its only free fields are the two flags. -/

namespace Sys2Proof

/-- The eleven command-word rows (30_encoding R110). -/
inductive Instr where
  /-- `CRC.DBUF` (40_crc R130) -/
  | crcDbuf
  /-- `CRC.TXBUF` (40_crc R130) -/
  | crcTxbuf
  /-- `CRC.RXBUF` (40_crc R130) -/
  | crcRxbuf
  /-- `MARSHAL` (41_framer R136) -/
  | marshal
  /-- `UNMARSHAL` (41_framer R146) -/
  | unmarshal
  /-- `BUS_WRITE` (42_bus R170) -/
  | busWrite
  /-- `BUS_READ` (42_bus R171) -/
  | busRead
  /-- `RESYNC` (42_bus R172) -/
  | resync
  /-- `EXECUTE`, with WAKE_FIRST, bit 8 (43_transaction R195, 30_encoding R98) -/
  | execute (wakeFirst : Bool)
  /-- `WAKE` (44_wake_sleep R225) -/
  | wake
  /-- `SLEEP`, with IDLE, bit 9 (44_wake_sleep R228, 30_encoding R99) -/
  | sleep (idle : Bool)
  deriving DecidableEq, Repr

end Sys2Proof
end

