-- ==== Sys2Proof/Decode.lean ====
section
/-! DEFINITION. Decoding a command word (30_encoding R95 to R99, R110 to R112), total on every 32-bit word, and the encoder
written from the same table. -/

namespace Sys2Proof

/-- One row of the table of 30_encoding R110: a word w matches when (w AND mask) = value. -/
structure Row where
  value : Word
  mask  : Word
  deriving DecidableEq, Repr

/-- Does the word match the row (30_encoding R110)? -/
def Row.accepts (r : Row) (w : Word) : Bool := w &&& r.mask == r.value

/-- OP, bits [3:0] (30_encoding R96). -/
def opField (w : Word) : BitVec 4 := w.extractLsb' 0 4

/-- SRC, bits [5:4] (30_encoding R97). -/
def srcField (w : Word) : BitVec 2 := w.extractLsb' 4 2

/-- WAKE_FIRST, bit 8 (30_encoding R98). -/
def wakeFirstField (w : Word) : Bool := w.getLsbD 8

/-- IDLE, bit 9 (30_encoding R99). -/
def idleField (w : Word) : Bool := w.getLsbD 9

/-- The rows of 30_encoding R110, each with the command its words select. -/
def rows (w : Word) : List (Row × Instr) :=
  [ (⟨0x00000001#32, 0xFFFFFFFF#32⟩, .crcDbuf),
    (⟨0x00000011#32, 0xFFFFFFFF#32⟩, .crcTxbuf),
    (⟨0x00000021#32, 0xFFFFFFFF#32⟩, .crcRxbuf),
    (⟨0x00000002#32, 0xFFFFFFFF#32⟩, .marshal),
    (⟨0x00000003#32, 0xFFFFFFFF#32⟩, .unmarshal),
    (⟨0x00000004#32, 0xFFFFFFFF#32⟩, .busWrite),
    (⟨0x00000005#32, 0xFFFFFFFF#32⟩, .busRead),
    (⟨0x00000006#32, 0xFFFFFFFF#32⟩, .resync),
    (⟨0x00000007#32, 0xFFFFFEFF#32⟩, .execute (wakeFirstField w)),
    (⟨0x00000008#32, 0xFFFFFFFF#32⟩, .wake),
    (⟨0x00000009#32, 0xFFFFFDFF#32⟩, .sleep (idleField w)) ]

/-- Why a word is illegal, in the order of the list of 30_encoding R111. -/
inductive IllegalWord where
  /-- OP is 0x0 or 0xA..0xF (R96) -/
  | reservedOp
  /-- SRC = 3 with OP = CRC (R97) -/
  | reservedSrc
  /-- a nonzero SRC with another OP (R97) -/
  | straySrc
  /-- WAKE_FIRST = 1 with OP ≠ EXECUTE (R98) -/
  | strayWakeFirst
  /-- IDLE = 1 with OP ≠ SLEEP (R99) -/
  | strayIdle
  /-- a bit of [7:6] or [31:10] is set (R95) -/
  | reservedBits
  deriving DecidableEq, Repr

/-- The first clause of 30_encoding R111 that an illegal word falls under. -/
def illegalReason (w : Word) : IllegalWord :=
  if opField w == 0#4 || 9#4 < opField w then .reservedOp
  else if opField w == 1#4 && srcField w == 3#2 then .reservedSrc
  else if opField w != 1#4 && srcField w != 0#2 then .straySrc
  else if wakeFirstField w && opField w != 7#4 then .strayWakeFirst
  else if idleField w && opField w != 9#4 then .strayIdle
  else .reservedBits

/-- The command a word selects, or why it is illegal (30_encoding R110, R111). -/
def decode (w : Word) : Except IllegalWord Instr :=
  match (rows w).find? (fun r => r.1.accepts w) with
  | some r => .ok r.2
  | none => .error (illegalReason w)

/-- The word of a command (30_encoding R95 to R99, R110). -/
def encode : Instr → Word
  | .crcDbuf => 0x00000001#32
  | .crcTxbuf => 0x00000011#32
  | .crcRxbuf => 0x00000021#32
  | .marshal => 0x00000002#32
  | .unmarshal => 0x00000003#32
  | .busWrite => 0x00000004#32
  | .busRead => 0x00000005#32
  | .resync => 0x00000006#32
  | .execute wakeFirst => 0x00000007#32 ||| (BitVec.ofBool wakeFirst).zeroExtend 32 <<< 8
  | .wake => 0x00000008#32
  | .sleep idle => 0x00000009#32 ||| (BitVec.ofBool idle).zeroExtend 32 <<< 9

/-- What the decoder reads from an instruction whose bits are w: a command word is one 32-bit register write, so its bits
are the word's bits (30_encoding R95) and every bit above nbits is 0. -/
def decodeTableWord (nbits w : Nat) : Option Instr :=
  (decode (BitVec.ofNat 32 (w % 2 ^ nbits))).toOption

end Sys2Proof
end

