-- ==== Sys2Proof/Config.lean ====
section
/-! DEFINITION. What one build of the controller fixes. The parameters a rule computes with are the record `Params`
(00_scope R8 to R16), an argument of the model that State carries as plain data (log 4). The durations and the platform
parameters, on whose values no rule depends (00_scope R12, R28; 70_reset_and_hazards R287), and the values the spec leaves
open (`any`, 00_scope R25) are opaque constants: nothing can be proved of their value (log 6, 7, 8). -/

namespace Sys2Proof

/-- RSP.CODE, the status code of a device status byte (41_framer R150); `none` is "no frame", never a status. -/
inductive DeviceCode where
  | success | boundaryError | rwConfigError | badAddress | countError | nonceError | macError | parseError
  | dataMismatch | lockError | keyError | tempSenseError | unknown | none
  deriving DecidableEq, Repr

/-- RESP_READ_MODE: how the second response read of EXECUTE is issued (00_scope R16). -/
inductive RespReadMode where
  | continue | restart
  deriving DecidableEq, Repr

/-- The implementation parameters a rule computes with (00_scope R8, R10, R11, R13 to R16). `statusTable` lists the named
status bytes; a byte it does not list is UNKNOWN (41_framer R151). -/
structure Params where
  maxCmdSize   : Nat
  rxBufSize    : Nat
  statusTable  : List (Byte × DeviceCode)
  sleepOpcode  : Byte
  sleepMode    : Byte
  idleMode     : Byte
  devAddrReset : BitVec 7
  ioaddrReset  : Half
  retriesReset : BitVec 3
  respReadMode : RespReadMode
  deriving DecidableEq, Repr

/-- DBUF_SIZE = MAX_CMD_SIZE - 9, the maximum command payload (00_scope R9). -/
def Params.dbufSize (p : Params) : Nat := p.maxCmdSize - 9

namespace Config

/-- PROC_DELAY(opcode, mode), in ticks (00_scope R12); a free value, recorded in the bus trace only (log 6). -/
opaque procDelay : Byte → Byte → Nat

/-- T_WAKE_LOW, in ticks (00_scope R12); a free value, recorded in the bus trace only (log 6). -/
opaque tWakeLow : Nat

/-- T_WAKE_HIGH, in ticks (00_scope R12); a free value, recorded in the bus trace only (log 6). -/
opaque tWakeHigh : Nat

/-- BUS_CLOCK, the I2C clock rate (00_scope R12): no rule depends on it (log 6). -/
opaque busClock : Nat

/-- TICK, the unit of the durations (00_scope R12): no rule depends on it (log 6). -/
opaque tick : Nat

/-- BLOCK_BASE, the host address of offset 0x000 (00_scope R28, 20_memory R85): the model's addresses are offsets from it
(log 15). -/
opaque blockBase : Nat

/-- IRQ_LINE, the host interrupt-controller input the IRQ output drives (00_scope R28): no rule depends on it (log 6). -/
opaque irqLine : Nat

/-- The byte a buffer entry holds after a reset until something writes it: `any`, one independent draw per entry and reset
(70_reset_and_hazards R272). Arguments: the reset count, the entry's host offset (log 7). -/
opaque bufferByte : Nat → Nat → Byte

/-- What the next host read of an output returns while BUSY = 1, before its reserved bits are cleared: `any`
(20_memory R72, R74). Argument: how many such reads came before (log 8). -/
opaque busyRead : Nat → Word

end Config

end Sys2Proof
end

