-- ==== Sys2Proof/Machine/Params.lean ====
section
/-! DEFINITION. The default parameters (00_scope R8 to R16, 93_implementation_defined section 2). -/

namespace Sys2Proof.Machine

/-- STATUS_TABLE's default: the byte column of 41_framer R150. Only 0x00 is the source's; the other bytes are the spec's
"general knowledge" defaults (log 5). -/
def defaultStatusTable : List (Byte × DeviceCode) :=
  [ (0x00#8, .success), (0x02#8, .boundaryError), (0x04#8, .rwConfigError), (0x08#8, .badAddress),
    (0x10#8, .countError), (0x20#8, .nonceError), (0x40#8, .macError), (0x50#8, .parseError),
    (0x60#8, .dataMismatch), (0x70#8, .lockError), (0x80#8, .keyError), (0x90#8, .tempSenseError) ]

/-- The default parameters (log 4, 5). -/
def defaultParams : Params where
  maxCmdSize := 64
  rxBufSize := 64
  statusTable := defaultStatusTable
  sleepOpcode := 0x11#8
  sleepMode := 0x00#8
  idleMode := 0x40#8
  devAddrReset := 0x50#7
  ioaddrReset := 0xFE00#16
  retriesReset := 3#3
  respReadMode := .continue

end Sys2Proof.Machine
end

