-- ==== Sys2Proof/Machine/State.lean ====
section
/-! DEFINITION. The state of the controller (10_state R30 to R68), as plain data, and its value after reset
(70_reset_and_hazards R270 to R274). -/

namespace Sys2Proof.Machine

/-! ## Named values of register fields -/

/-- RS's TransactionState, STATUS.TSTATE (10_state R37). -/
inductive TState where
  | idle | addrW | dataSent | stopSent | rstartPending | addrR | dataReceived | failed
  deriving DecidableEq, Repr

/-- STATUS.PHASE (10_state R36). -/
inductive Phase where
  | idle | check | crc | marshal | unmarshal | wake | write | resync | wait | readCount | readBody | read
  deriving DecidableEq, Repr

/-- The RESULT codes (60_exceptions R243); `none` is NONE, the value at reset only. -/
inductive ResultCode where
  | ok | deviceError | unknownDeviceError | commFail | resyncFail | frameTooLarge | frameShort | crcError
  | frameCountError | badCommand | seqError | badLength | none
  deriving DecidableEq, Repr

/-- RSP, the decoded response (10_state R56). -/
structure Rsp where
  valid  : Bool
  dlen   : Byte
  code   : DeviceCode
  status : Byte
  deriving DecidableEq, Repr

/-- The "no frame" value of RSP, 0x0000_0F00 (10_state R56). -/
def noFrame : Rsp := { valid := false, dlen := 0#8, code := .none, status := 0#8 }

/-- The three byte buffers (10_state R57 to R59). -/
inductive Buf where
  | dbuf | txbuf | rxbuf
  deriving DecidableEq, Repr

/-! ## The bus: actions, the environment's replies, the bus trace -/

/-- The answer to a Start (42_bus R160). -/
inductive StartReply where
  | ok | held
  deriving DecidableEq, Repr

/-- The answer to a repeated Start (42_bus R160). -/
inductive RstartReply where
  | ok | lost
  deriving DecidableEq, Repr

/-- The answer to a transmitted byte (42_bus R160). -/
inductive ByteReply where
  | ack | nack | lost
  deriving DecidableEq, Repr

/-- What the environment does in one controller turn, for whichever action the controller issues in it: each field is the
answer to one kind of action of 42_bus R160, and STOP, DUMMY and WAKEPULSE have the one answer DONE (log 3). -/
structure BusReply where
  start  : StartReply
  rstart : RstartReply
  byte   : ByteReply
  data   : List Byte
  deriving DecidableEq, Repr

/-- A bus action (42_bus R160). -/
inductive Action where
  | start
  | rstart
  | stop
  | wrbyte (b : Byte)
  | rdbytes (n : Nat)
  | dummy (b : Byte)
  | wakePulse (tlo thi : Nat)
  deriving DecidableEq, Repr

/-- An entry of the bus trace: an action with the answer it got, or a WAIT (42_bus R161). -/
inductive Event where
  | start (r : StartReply)
  | rstart (r : RstartReply)
  | stop
  | wrbyte (b : Byte) (r : ByteReply)
  | rdbytes (n : Nat) (v : List Byte)
  | dummy (b : Byte)
  | wakePulse (tlo thi : Nat)
  | wait (t : Nat)
  deriving DecidableEq, Repr

/-! ## Host accesses and the schedule of turns -/

/-- A host access at a byte offset from BLOCK_BASE, of `size` bytes (00_scope R20, 20_memory R70). -/
inductive Access where
  | read (off size : Nat)
  | write (off size : Nat) (v : Word)
  deriving DecidableEq, Repr

/-- What the host gets back: a read's data, a write taken without error, or the error response of 20_memory R70. -/
inductive Response where
  | data (v : Word)
  | done
  | error
  deriving DecidableEq, Repr

/-- One agent's move (00_scope R26): a host access, the reset input, or the controller's next step with the environment's
reply to it (`none`: the environment does not answer a bus action in this turn). -/
inductive Turn where
  | host (a : Access)
  | reset
  | ctrl (reply : Option BusReply)
  deriving DecidableEq, Repr

/-! ## The sequencer's position (10_state R62)

One constructor per line of the pseudocode, each line being one step (00_scope R26, 43_transaction R195; log 2); a constructor's
arguments are the values the lines before it have named. A line that calls a primitive is at the primitive's own lines. -/

/-- Inside `SendByte`: its four lines (42_bus R162); `a` is the answer its first line got. -/
inductive SendPos where
  | send
  | ifAck (a : ByteReply)
  | ifNack (a : ByteReply)
  | ifLost
  deriving DecidableEq, Repr

/-- Inside `BusWrite` (42_bus R163); `forBytes` is the head of its loop, with the bytes not yet sent. -/
inductive WritePos where
  | start
  | addr (p : SendPos)
  | setAddrW
  | forBytes (rest : List Byte)
  | byte (b : Byte) (rest : List Byte) (p : SendPos)
  | setDataSent
  | stop
  | setStopSent
  | setIdle
  | retOk
  deriving DecidableEq, Repr

/-- Inside `BusRead` (42_bus R164); `lenCheck` is its line `if len(v) != n`. -/
inductive ReadPos where
  | start
  | addrW (p : SendPos)
  | setAddrW
  | forBytes (rest : List Byte)
  | byte (b : Byte) (rest : List Byte) (p : SendPos)
  | setDataSent
  | setRstartPending
  | rstart
  | addrR (p : SendPos)
  | setAddrR
  | rdbytes
  | lenCheck (v : List Byte)
  | setDataReceived (v : List Byte)
  | stop (v : List Byte)
  | setIdle (v : List Byte)
  | retOk (v : List Byte)
  deriving DecidableEq, Repr

/-- Inside `Resync` (42_bus R165). -/
inductive ResyncPos where
  | start
  | startAgain
  | setFailed
  | retHeld
  | dummy
  | stop
  | setIdle
  | retOk
  deriving DecidableEq, Repr

/-- A line of `WriteWithRetry` (43_transaction R199); `head` is the head of its loop. -/
inductive RetryLine where
  | head
  | setWrite
  | setAttempts
  | write (p : WritePos)
  | setResync
  | resync (p : ResyncPos)
  | exhausted
  deriving DecidableEq, Repr

/-- Inside `WriteWithRetry`: the loop counter and the line (10_state R62). -/
structure RetryPos where
  attempt : Nat
  line    : RetryLine
  deriving DecidableEq, Repr

/-- The outcome of `Unmarshal` (41_framer R145): a frame error or a valid frame's status byte. -/
inductive Verdict where
  | frameShort
  | crcError
  | frameCountError
  | valid (status : Byte)
  deriving DecidableEq, Repr

/-- Lines of the CRC command (40_crc R130). -/
inductive CrcLine where
  | setPhase
  | setSource
  | check (size : Nat)
  | compute
  | store (c : Half)
  deriving DecidableEq, Repr

/-- Lines of MARSHAL (41_framer R136). -/
inductive MarshalLine where
  | setPhase
  | build
  | check (r : Option (List Byte))
  | getLen (f : List Byte)
  | store (f : List Byte) (n : Nat)
  | setLen (n : Nat)
  deriving DecidableEq, Repr

/-- Lines of UNMARSHAL (41_framer R146). -/
inductive UnmarshalLine where
  | setPhase
  | clearRsp
  | getLen
  | check (n : Nat)
  | run (n : Nat)
  | checkFrame (n : Nat) (v : Verdict)
  | apply (n : Nat) (status : Byte)
  deriving DecidableEq, Repr

/-- Lines of BUS_WRITE (42_bus R170). -/
inductive BusWriteLine where
  | setCheck
  | seqCheck
  | lenCheck
  | setPhase
  | transfer (p : WritePos)
  | result (ok : Bool)
  deriving DecidableEq, Repr

/-- Lines of BUS_READ (42_bus R171). -/
inductive BusReadLine where
  | setCheck
  | seqCheck
  | lenCheck
  | setPhase
  | getLen
  | transfer (n : Nat) (p : ReadPos)
  | result (n : Nat) (v : Option (List Byte))
  | clearLen
  | bind (n : Nat) (v : List Byte)
  | store (n : Nat) (v : List Byte)
  | setLen (n : Nat)
  deriving DecidableEq, Repr

/-- Lines of RESYNC (42_bus R172). -/
inductive ResyncLine where
  | setPhase
  | run (p : ResyncPos)
  deriving DecidableEq, Repr

/-- Lines of WAKE (44_wake_sleep R225). -/
inductive WakeLine where
  | setPhase
  | pulse
  deriving DecidableEq, Repr

/-- Lines of SLEEP (44_wake_sleep R228). -/
inductive SleepLine where
  | setCheck
  | seqCheck
  | setMarshal
  | setMode
  | build (m : Byte)
  | store (f : List Byte)
  | write (p : RetryPos)
  | result (w : ResultCode)
  deriving DecidableEq, Repr

/-- Lines of EXECUTE (43_transaction R195), and of its `ReadFail` (R205). -/
inductive ExecuteLine where
  | setCheck
  | clearRsp
  | seqCheck
  | lenCheck
  | setMarshal
  | build
  | check (r : Option (List Byte))
  | store (f : List Byte)
  | ifWake
  | setWake
  | pulse
  | write (p : RetryPos)
  | result (w : ResultCode)
  | setWait
  | wait
  | setReadCount
  | readCount (p : ReadPos)
  | countResult (v : Option (List Byte))
  | bindCount (v : List Byte)
  | storeCount (c : Byte)
  | shortCheck (c : Byte)
  | longCheck (c : Byte)
  | setReadBody (c : Byte)
  | ifContinue (c : Byte)
  | readBody (c : Byte) (p : ReadPos)
  | bodyResult (c : Byte) (v : Option (List Byte))
  | bindBody (c : Byte) (v : List Byte)
  | storeBody (c : Byte) (v : List Byte)
  | restartCheck (c : Byte) (v : List Byte)
  | setUnmarshal (c : Byte)
  | unmarshal (c : Byte)
  | checkFrame (c : Byte) (v : Verdict)
  | apply (c : Byte) (status : Byte)
  | failClearLen
  | failSetResync
  | failResync (p : ResyncPos)
  deriving DecidableEq, Repr

/-- The step the sequencer is at (10_state R62): the command word is accepted and not yet decoded, or a line of a command,
or the completion step with the code to record (60_exceptions R241, R242). -/
inductive Pos where
  | accepted
  | crc (src : Buf) (l : CrcLine)
  | marshal (l : MarshalLine)
  | unmarshal (l : UnmarshalLine)
  | busWrite (l : BusWriteLine)
  | busRead (l : BusReadLine)
  | resync (l : ResyncLine)
  | execute (wakeFirst : Bool) (l : ExecuteLine)
  | wake (l : WakeLine)
  | sleep (idle : Bool) (l : SleepLine)
  | complete (code : ResultCode)
  deriving DecidableEq, Repr

/-- The command being run: the snapshot of 10_state R63 and the position of R62. -/
structure Seq where
  word    : Word
  retries : BitVec 3
  pos     : Pos
  deriving DecidableEq, Repr

/-! ## The state -/

/-- The whole state (10_state R30). The fields down to `draws` are the model's own or hidden state; the rest are the
host-visible registers, each at the width of its defined fields (reserved bits read as 0, 10_state R61). -/
structure State where
  /-- the parameters (00_scope section 5), never changed by a step (log 4) -/
  params   : Params
  /-- the moves still to come (log 1); the model's own field -/
  turns    : List Turn
  /-- the running command, or no command (10_state R62, R63) -/
  seq      : Option Seq
  /-- the bus action issued and not yet answered (10_state R64) -/
  pending  : Option Action
  /-- the bus trace, oldest first (42_bus R161); the model's own field -/
  trace    : List Event
  /-- what the host got back, oldest first (log 12); the model's own field -/
  hostLog  : List Response
  /-- resets so far, selecting the free buffer bytes (log 7); the model's own field -/
  epoch    : Nat
  /-- `any` reads so far, selecting the next free read value (log 8); the model's own field -/
  draws    : Nat
  /-- the buffer bytes written since reset, by host offset (10_state R57 to R60; log 17) -/
  mem      : List Host.Cell
  /-- CTRL.IE (10_state R31) -/
  ie       : Bool
  /-- CTRL.RETRIES (10_state R31) -/
  retries  : BitVec 3
  /-- STATUS.BUSY (10_state R33) -/
  busy     : Bool
  /-- STATUS.DONE (10_state R34) -/
  done     : Bool
  /-- STATUS.OVR (10_state R35) -/
  ovr      : Bool
  /-- STATUS.TSTATE (10_state R37) -/
  tstate   : TState
  /-- STATUS.PHASE (10_state R36) -/
  phase    : Phase
  /-- STATUS.ATTEMPTS (10_state R38) -/
  attempts : BitVec 4
  /-- CMD (10_state R39) -/
  cmd      : Word
  /-- RESULT.CODE (10_state R40) -/
  result   : ResultCode
  /-- DEV_ADDR.ADDR (10_state R41) -/
  devAddr  : BitVec 7
  /-- WADDR (10_state R42) -/
  waddr    : Half
  /-- IOADDR (10_state R43) -/
  ioaddr   : Half
  /-- OPCODE (10_state R44) -/
  opcode   : Byte
  /-- MODE (10_state R45) -/
  mode     : Byte
  /-- PARAM1 (10_state R46) -/
  param1   : Half
  /-- PARAM2 (10_state R47) -/
  param2   : Half
  /-- DLEN (10_state R48) -/
  dlen     : Word
  /-- WR_LEN (10_state R49) -/
  wrLen    : Byte
  /-- RD_LEN (10_state R50) -/
  rdLen    : Byte
  /-- CRC_LEN (10_state R51) -/
  crcLen   : Byte
  /-- RESP_LEN (10_state R52) -/
  respLen  : Byte
  /-- FRAME_LEN (10_state R53) -/
  frameLen : Byte
  /-- RX_LEN (10_state R54) -/
  rxLen    : Byte
  /-- CRC (10_state R55) -/
  crc      : Half
  /-- RSP (10_state R56) -/
  rsp      : Rsp
  deriving DecidableEq, Repr

/-- The controller never stops with a fault: it takes no trap, and every error is a recorded RESULT code (60_exceptions
R240); a bus that never answers leaves it waiting (42_bus R173), and an illegal host access gets an error response
(20_memory R70, log 9). So there is no constructor. -/
inductive Fault where
  deriving DecidableEq, Repr

/-- Why a step has no answer. -/
inductive Refusal where
  /-- Raised by `exec` for a command that has no meaning yet; safe. No arm raises it: every command has its meaning. -/
  | notModelled (mnemonic : String)
  deriving DecidableEq, Repr

/-- The state right after reset with parameters `p` (70_reset_and_hazards R271): every register at its reset value, no
hidden state, and no buffer byte written (R272). -/
def State.initial (p : Params) : State where
  params := p
  turns := []
  seq := none
  pending := none
  trace := []
  hostLog := []
  epoch := 0
  draws := 0
  mem := []
  ie := false
  retries := p.retriesReset
  busy := false
  done := false
  ovr := false
  tstate := .idle
  phase := .idle
  attempts := 0#4
  cmd := 0#32
  result := .none
  devAddr := p.devAddrReset
  waddr := 0#16
  ioaddr := p.ioaddrReset
  opcode := 0#8
  mode := 0#8
  param1 := 0#16
  param2 := 0#16
  dlen := 0#32
  wrLen := 0#8
  rdLen := 0#8
  crcLen := 0#8
  respLen := BitVec.ofNat 8 p.rxBufSize
  frameLen := 0#8
  rxLen := 0#8
  crc := 0#16
  rsp := noFrame

/-- The machine right after reset, with the default parameters (70_reset_and_hazards R271). No move is scheduled: the
controller "waits for a CMD write" (R274; log 13). -/
def State.reset : State := State.initial defaultParams

end Sys2Proof.Machine
end

