-- ==== Sys2Proof/Machine/Operands.lean ====
section
/-! DEFINITION. Operand assembly (30_encoding R113): byte order, the address byte, the buffer windows, the segment lengths. -/

namespace Sys2Proof.Machine

/-- `be16(v)`: high byte first (00_scope R24, 20_memory R79). -/
def be16 (v : Half) : List Byte := [v.extractLsb' 8 8, v.extractLsb' 0 8]

/-- `from_be16(a, b)` = {a, b} (00_scope R24). -/
def fromBe16 (a b : Byte) : Half := a ++ b

/-- The address byte {DEV_ADDR[6:0], rw}: rw = 0 for the write flag, 1 for the read flag (30_encoding R104; log 5). -/
def addrByte (devAddr : BitVec 7) (readFlag : Bool) : Byte := devAddr ++ BitVec.ofBool readFlag

/-- The host offset of a buffer's window (10_state R60). -/
def Buf.base : Buf → Nat
  | .dbuf => 0x200
  | .txbuf => 0x400
  | .rxbuf => 0x600

/-- A buffer's size in bytes (10_state R57 to R59). -/
def Buf.size (p : Params) : Buf → Nat
  | .dbuf => p.dbufSize
  | .txbuf => p.maxCmdSize
  | .rxbuf => p.rxBufSize

/-- The host offset of entry i of a buffer (10_state R60). -/
def Buf.offset (b : Buf) (i : Nat) : Nat := b.base + 4 * i

/-- DLEN1, bits [7:0] (10_state R48). -/
def dlen1 (d : Word) : Byte := d.extractLsb' 0 8

/-- DLEN2, bits [15:8] (10_state R48). -/
def dlen2 (d : Word) : Byte := d.extractLsb' 8 8

/-- DLEN3, bits [23:16] (10_state R48). -/
def dlen3 (d : Word) : Byte := d.extractLsb' 16 8

/-- DLEN4, bits [31:24] (10_state R48). -/
def dlen4 (d : Word) : Byte := d.extractLsb' 24 8

/-- L, the exact sum of four segment lengths, without wrap (41_framer R135). -/
def segmentSum (l1 l2 l3 l4 : Byte) : Nat := l1.toNat + l2.toNat + l3.toNat + l4.toNat

/-- L for the DLEN register (10_state R57). -/
def payloadLength (d : Word) : Nat := segmentSum (dlen1 d) (dlen2 d) (dlen3 d) (dlen4 d)

end Sys2Proof.Machine
end

