-- ==== Sys2Proof/Machine/Flags.lean ====
section
/-! DEFINITION. Status encodings and computed views: TSTATE, PHASE, RESULT and RSP codes, the register words, the status
table, IRQ. -/

namespace Sys2Proof.Machine

/-- TSTATE's encoding (10_state R37). -/
def TState.bits : TState → BitVec 3
  | .idle => 0#3
  | .addrW => 1#3
  | .dataSent => 2#3
  | .stopSent => 3#3
  | .rstartPending => 4#3
  | .addrR => 5#3
  | .dataReceived => 6#3
  | .failed => 7#3

/-- PHASE's encoding (10_state R36). -/
def Phase.bits : Phase → BitVec 4
  | .idle => 0#4
  | .check => 1#4
  | .crc => 2#4
  | .marshal => 3#4
  | .unmarshal => 4#4
  | .wake => 5#4
  | .write => 6#4
  | .resync => 7#4
  | .wait => 8#4
  | .readCount => 9#4
  | .readBody => 10#4
  | .read => 11#4

/-- RESULT.CODE's encoding (60_exceptions R243). -/
def ResultCode.byte : ResultCode → Byte
  | .ok => 0x00#8
  | .deviceError => 0x01#8
  | .unknownDeviceError => 0x02#8
  | .commFail => 0x10#8
  | .resyncFail => 0x11#8
  | .frameTooLarge => 0x20#8
  | .frameShort => 0x21#8
  | .crcError => 0x22#8
  | .frameCountError => 0x23#8
  | .badCommand => 0x30#8
  | .seqError => 0x31#8
  | .badLength => 0x32#8
  | .none => 0xFF#8

/-- RSP.CODE's encoding (41_framer R150). -/
def deviceCodeBits : DeviceCode → BitVec 4
  | .success => 0#4
  | .boundaryError => 1#4
  | .rwConfigError => 2#4
  | .badAddress => 3#4
  | .countError => 4#4
  | .nonceError => 5#4
  | .macError => 6#4
  | .parseError => 7#4
  | .dataMismatch => 8#4
  | .lockError => 9#4
  | .keyError => 10#4
  | .tempSenseError => 11#4
  | .unknown => 14#4
  | .none => 15#4

/-- STATUS_TABLE(s), total: a byte the table does not list is UNKNOWN (41_framer R151). -/
def deviceCode (p : Params) (s : Byte) : DeviceCode := (p.statusTable.lookup s).getD .unknown

/-- The result of a valid frame with this status code (41_framer R148). -/
def deviceResult : DeviceCode → ResultCode
  | .success => .ok
  | .unknown => .unknownDeviceError
  | _ => .deviceError

/-- RSP for a valid frame of n bytes with status byte s (41_framer R148). -/
def validRsp (p : Params) (n : Nat) (s : Byte) : Rsp :=
  { valid := true, dlen := BitVec.ofNat 8 (n - 4), code := deviceCode p s, status := s }

/-- CTRL as the host reads it: IE [0], RETRIES [6:4] (10_state R31). -/
def State.ctrlWord (s : State) : Word :=
  (0#25 ++ s.retries ++ 0#3 ++ BitVec.ofBool s.ie : BitVec 32)

/-- STATUS as the host reads it: BUSY [0], DONE [1], OVR [2], TSTATE [6:4], PHASE [11:8], ATTEMPTS [15:12] (10_state R32). -/
def State.statusWord (s : State) : Word :=
  (0#16 ++ s.attempts ++ s.phase.bits ++ 0#1 ++ s.tstate.bits ++ 0#1
    ++ BitVec.ofBool s.ovr ++ BitVec.ofBool s.done ++ BitVec.ofBool s.busy : BitVec 32)

/-- RSP as the host reads it: STATUS [7:0], CODE [11:8], DLEN [23:16], VALID [31] (10_state R56). -/
def Rsp.word (r : Rsp) : Word :=
  (BitVec.ofBool r.valid ++ 0#7 ++ r.dlen ++ 0#4 ++ deviceCodeBits r.code ++ r.status : BitVec 32)

/-- The IRQ output, DONE AND IE at every instant (10_state R65, 60_exceptions R258). -/
def State.irq (s : State) : Bool := s.done && s.ie

end Sys2Proof.Machine
end

