-- ==== Sys2Proof/Machine/Ops.lean ====
section
/-! DEFINITION. The shared operations: the buffer memory, the position and status updates, issuing a bus action, accepting
and completing a command, and the reset step. The controller takes no trap (60_exceptions R240); what stands in the place of
taking an exception and returning from it are `State.accept` (R241) and `State.complete` (R242). -/

namespace Sys2Proof.Machine

/-! ## Memory: the bytes of the buffer windows, by host offset -/

namespace Memory

/-- The byte written at an offset since reset, if any. -/
def read : List Host.Cell → Nat → Option Byte
  | [], _ => none
  | (k, w) :: rest, a => if k = a then some w else read rest a

/-- Writes one byte, keeping the offsets strictly rising. -/
def write : List Host.Cell → Nat → Byte → List Host.Cell
  | [], a, v => [(a, v)]
  | (k, w) :: rest, a, v =>
    if a < k then (a, v) :: (k, w) :: rest
    else if a = k then (a, v) :: rest
    else (k, w) :: write rest a v

/-- Offsets are strictly rising, and all above `lo` when a bound is given. -/
def sortedFrom : Option Nat → List Host.Cell → Bool
  | _, [] => true
  | lo, (k, _) :: rest => (lo.all fun l => decide (l < k)) && sortedFrom (some k) rest

/-- The offset of an implemented buffer entry (10_state R60, R61). -/
def mapped (p : Params) (a : Nat) : Bool :=
  [Buf.dbuf, Buf.txbuf, Buf.rxbuf].any fun b =>
    decide (b.base ≤ a) && decide (a < b.base + 4 * b.size p) && decide (a % 4 = 0)

/-- The canonical form: offsets strictly rising, each that of an implemented buffer entry. An unlisted offset has not been
written since reset, so no entry equals what an unlisted offset holds (log 17). -/
def wf (p : Params) (m : List Host.Cell) : Bool :=
  sortedFrom none m && m.all fun c => mapped p c.1

end Memory

/-- The byte at a host offset: the one last written, or the free value a byte holds from reset on
(70_reset_and_hazards R272; log 7). -/
def State.byteAt (s : State) (off : Nat) : Byte :=
  (Memory.read s.mem off).getD (Config.bufferByte s.epoch off)

/-- `B[i]` (00_scope R18, R20). -/
def State.bufByte (s : State) (b : Buf) (i : Nat) : Byte := s.byteAt (b.offset i)

/-- `B[a .. a+n)` (00_scope R18). -/
def State.bufSlice (s : State) (b : Buf) (a n : Nat) : List Byte :=
  (List.range n).map fun i => s.bufByte b (a + i)

/-- `B[i] <- v`, for an index inside the buffer; no rule makes the controller use another (20_memory R84; log 14). -/
def State.setBufByte (s : State) (b : Buf) (i : Nat) (v : Byte) : State :=
  if i < b.size s.params then { s with mem := Memory.write s.mem (b.offset i) v } else s

/-- `B[a .. a + len(v)) <- v`. -/
def State.setBufBytes (b : Buf) : Nat → List Byte → State → State
  | _, [], s => s
  | a, v :: rest, s => State.setBufBytes b (a + 1) rest (s.setBufByte b a v)

/-! ## The sequencer's own writes -/

/-- `PHASE <- p` (00_scope R23). -/
def State.setPhase (p : Phase) (s : State) : State := { s with phase := p }

/-- `TSTATE <- t` (42_bus R166). -/
def State.setTState (t : TState) (s : State) : State := { s with tstate := t }

/-- `RSP <- r` (10_state R56). -/
def State.setRsp (r : Rsp) (s : State) : State := { s with rsp := r }

/-- `RX_LEN <- n` (10_state R54). -/
def State.setRxLen (n : Nat) (s : State) : State := { s with rxLen := BitVec.ofNat 8 n }

/-- `FRAME_LEN <- n` (10_state R53). -/
def State.setFrameLen (n : Nat) (s : State) : State := { s with frameLen := BitVec.ofNat 8 n }

/-- `ATTEMPTS <- n` (10_state R38). -/
def State.setAttempts (n : Nat) (s : State) : State := { s with attempts := BitVec.ofNat 4 n }

/-- The sequencer goes on at `p` (10_state R62). -/
def State.goto (p : Pos) (s : State) : State := { s with seq := s.seq.map fun q => { q with pos := p } }

/-- The RETRIES value snapshotted at acceptance (10_state R63). -/
def State.snapRetries (s : State) : Nat := (s.seq.map fun q => q.retries.toNat).getD 0

/-! ## Bus actions -/

/-- The trace entry of an action answered by reply r (42_bus R161). -/
def Action.event (a : Action) (r : BusReply) : Event :=
  match a with
  | .start => .start r.start
  | .rstart => .rstart r.rstart
  | .stop => .stop
  | .wrbyte b => .wrbyte b r.byte
  | .rdbytes n => .rdbytes n r.data
  | .dummy b => .dummy b
  | .wakePulse tlo thi => .wakePulse tlo thi

/-- Action a is issued and not answered: the controller holds it and waits (10_state R64, 42_bus R173). -/
def State.await (a : Action) (s : State) : State := { s with pending := some a }

/-- Action a is answered: it joins the bus trace with its answer, and nothing is pending (42_bus R161). -/
def State.answered (a : Action) (r : BusReply) (s : State) : State :=
  { s with pending := none, trace := s.trace ++ [a.event r] }

/-- `WAIT(t)`: an internal step, recorded in the bus trace (00_scope R21, 42_bus R161). -/
def State.recordWait (t : Nat) (s : State) : State := { s with trace := s.trace ++ [.wait t] }

/-- Where a primitive stands after one step: still inside, at `p`, or returned with `r`. -/
inductive Flow (P R : Type) where
  | at (p : P)
  | ret (r : R)
  deriving DecidableEq, Repr

/-- A line with `BUS(a)` (00_scope R21): without a reply the controller waits where it is; with one the line does the rest of what it
says, in the same step (R26). -/
def onBus {P R : Type} (a : Action) (reply : Option BusReply) (here : P) (s : State)
    (k : BusReply → State → State × Flow P R) : State × Flow P R :=
  match reply with
  | none => (s.await a, .at here)
  | some r => k r (s.answered a r)

/-- A line that calls a primitive, inside a primitive: while the callee runs, at `inside` its line; once it returns, `k` says what the
calling line does with the answer, in the step of the `return`. -/
def inCall {P Q A R : Type} (x : State × Flow Q A) (inside : Q → P) (k : A → State → State × Flow P R) : State × Flow P R :=
  match x with
  | (s, .at q) => (s, .at (inside q))
  | (s, .ret a) => k a s

/-- A command's line that calls a primitive: the same, with the sequencer's position. -/
def callLine {Q A : Type} (x : State × Flow Q A) (inside : Q → Pos) (k : A → State → State) : State :=
  match x with
  | (s, .at q) => s.goto (inside q)
  | (s, .ret a) => k a s

/-- The wake pulse WAKEPULSE(T_WAKE_LOW, T_WAKE_HIGH) (44_wake_sleep R226; log 6). -/
def wakePulse : Action := .wakePulse Config.tWakeLow Config.tWakeHigh

/-! ## Acceptance, completion, reset -/

/-- Acceptance of word w while BUSY = 0 (60_exceptions R241). -/
def State.accept (w : Word) (s : State) : State :=
  { s with
    cmd := w, busy := true, done := false, attempts := 0#4, phase := .check
    seq := some { word := w, retries := s.retries, pos := .accepted } }

/-- `complete(code)`: RESULT, PHASE, BUSY and DONE in the one completion step, and no command runs any more
(60_exceptions R242, 10_state R62). A line that raises or finishes is this step (00_scope R22, R26; log 2). -/
def State.complete (code : ResultCode) (s : State) : State :=
  { s with result := code, phase := .idle, busy := false, done := true, seq := none }

/-- The reset step (70_reset_and_hazards R270): every register at its reset value, no hidden state, every buffer byte a
fresh free value (R272). The parameters, the moves still to come and the two histories are not the reset's (log 4, 12). -/
def State.resetStep (s : State) : State :=
  { State.initial s.params with
    turns := s.turns, trace := s.trace, hostLog := s.hostLog, epoch := s.epoch + 1, draws := s.draws }

end Sys2Proof.Machine
end

