-- ==== Sys2Proof/Machine/HostPort.lean ====
section
/-! DEFINITION. The host side: the register map (10_state R30 to R61) and host accesses (20_memory R70 to R77). -/

namespace Sys2Proof.Machine

/-- The registers of the map of 10_state section 2. -/
inductive Reg where
  | ctrl | status | cmd | result | devAddr | waddr | ioaddr | opcode | mode | param1 | param2 | dlen | wrLen | rdLen
  | crcLen | respLen | frameLen | rxLen | crc | rsp
  deriving DecidableEq, Repr

/-- The register at a byte offset (10_state section 2). -/
def regAt : Nat → Option Reg
  | 0x000 => some .ctrl
  | 0x004 => some .status
  | 0x008 => some .cmd
  | 0x00C => some .result
  | 0x010 => some .devAddr
  | 0x014 => some .waddr
  | 0x018 => some .ioaddr
  | 0x01C => some .opcode
  | 0x020 => some .mode
  | 0x024 => some .param1
  | 0x028 => some .param2
  | 0x02C => some .dlen
  | 0x030 => some .wrLen
  | 0x034 => some .rdLen
  | 0x038 => some .crcLen
  | 0x03C => some .respLen
  | 0x040 => some .frameLen
  | 0x044 => some .rxLen
  | 0x048 => some .crc
  | 0x04C => some .rsp
  | _ => none

/-- What a mapped offset names: a register, or entry i of a buffer. -/
inductive Target where
  | reg (r : Reg)
  | entry (b : Buf) (i : Nat)
  deriving DecidableEq, Repr

/-- The implemented buffer entry at an aligned offset (10_state R60, 20_memory R71). -/
def entryAt (p : Params) (off : Nat) : Option Target :=
  [Buf.dbuf, Buf.txbuf, Buf.rxbuf].findSome? fun b =>
    if b.base ≤ off ∧ off < b.base + 4 * b.size p then some (.entry b ((off - b.base) / 4)) else none

/-- What a legal access reaches: a single 32-bit access at a multiple of 4 that is mapped; `none` is an illegal access
(20_memory R70, R71). -/
def target (p : Params) (off size : Nat) : Option Target :=
  if size = 4 ∧ off % 4 = 0 then
    match regAt off with
    | some r => some (.reg r)
    | none => entryAt p off
  else none

/-- A register's current value, reserved bits 0 (10_state R31 to R56, R61). -/
def State.regWord (s : State) : Reg → Word
  | .ctrl => s.ctrlWord
  | .status => s.statusWord
  | .cmd => s.cmd
  | .result => s.result.byte.zeroExtend 32
  | .devAddr => s.devAddr.zeroExtend 32
  | .waddr => s.waddr.zeroExtend 32
  | .ioaddr => s.ioaddr.zeroExtend 32
  | .opcode => s.opcode.zeroExtend 32
  | .mode => s.mode.zeroExtend 32
  | .param1 => s.param1.zeroExtend 32
  | .param2 => s.param2.zeroExtend 32
  | .dlen => s.dlen
  | .wrLen => s.wrLen.zeroExtend 32
  | .rdLen => s.rdLen.zeroExtend 32
  | .crcLen => s.crcLen.zeroExtend 32
  | .respLen => s.respLen.zeroExtend 32
  | .frameLen => s.frameLen.zeroExtend 32
  | .rxLen => s.rxLen.zeroExtend 32
  | .crc => s.crc.zeroExtend 32
  | .rsp => s.rsp.word

/-- The value a legal read returns while BUSY = 0, and the one of a register that reads live at any time
(20_memory R72). -/
def State.targetWord (s : State) : Target → Word
  | .reg r => s.regWord r
  | .entry b i => (s.bufByte b i).zeroExtend 32

/-- The defined bits of an output that reads as `any` while BUSY = 1, and 0 for what reads as its value at any time
(20_memory R72, R74). -/
def anyMask : Target → Word
  | .reg .frameLen | .reg .rxLen | .reg .result => 0x000000FF#32
  | .reg .crc => 0x0000FFFF#32
  | .reg .rsp => 0x80FF0FFF#32
  | .entry .txbuf _ | .entry .rxbuf _ => 0x000000FF#32
  | _ => 0#32

/-- What the host gets back joins the model's record of it (log 12). -/
def State.respond (r : Response) (s : State) : State := { s with hostLog := s.hostLog ++ [r] }

/-- A legal read: no side effect (20_memory R76); while BUSY = 1 an output is the next free value, its reserved bits 0
(R72, R74; log 8). -/
def State.hostRead (t : Target) (s : State) : State :=
  if s.busy && anyMask t != 0#32 then
    State.respond (.data (Config.busyRead s.draws &&& anyMask t)) { s with draws := s.draws + 1 }
  else s.respond (.data (s.targetWord t))

/-- A read-write parameter register takes its defined fields of the word (20_memory R73, 10_state R41 to R54). -/
def State.writeParam (r : Reg) (v : Word) (s : State) : State :=
  match r with
  | .devAddr => { s with devAddr := v.extractLsb' 0 7 }
  | .waddr => { s with waddr := v.extractLsb' 0 16 }
  | .ioaddr => { s with ioaddr := v.extractLsb' 0 16 }
  | .opcode => { s with opcode := v.extractLsb' 0 8 }
  | .mode => { s with mode := v.extractLsb' 0 8 }
  | .param1 => { s with param1 := v.extractLsb' 0 16 }
  | .param2 => { s with param2 := v.extractLsb' 0 16 }
  | .dlen => { s with dlen := v }
  | .wrLen => { s with wrLen := v.extractLsb' 0 8 }
  | .rdLen => { s with rdLen := v.extractLsb' 0 8 }
  | .crcLen => { s with crcLen := v.extractLsb' 0 8 }
  | .respLen => { s with respLen := v.extractLsb' 0 8 }
  | .rxLen => { s with rxLen := v.extractLsb' 0 8 }
  | .ctrl | .status | .cmd | .result | .frameLen | .crc | .rsp => s

/-- CTRL takes IE and RETRIES, at any time (10_state R31, 20_memory R75). -/
def State.writeCtrl (v : Word) (s : State) : State :=
  { s with ie := v.getLsbD 0, retries := v.extractLsb' 4 3 }

/-- A STATUS write clears DONE by bit 1 and OVR by bit 2, at any time (10_state R32). -/
def State.writeStatus (v : Word) (s : State) : State :=
  { s with done := s.done && !v.getLsbD 1, ovr := s.ovr && !v.getLsbD 2 }

/-- Is a write here dropped, with OVR set, while BUSY = 1 (10_state R35, 20_memory R75)? The read-only registers are not
in that list: a write to one is ignored at any time (log 10). -/
def droppedWhileBusy : Target → Bool
  | .reg .ctrl | .reg .status => false
  | .reg .result | .reg .frameLen | .reg .crc | .reg .rsp => false
  | .reg _ => true
  | .entry _ _ => true

/-- A legal write (20_memory R73, R75). -/
def State.hostWrite (t : Target) (v : Word) (s : State) : State :=
  if s.busy && droppedWhileBusy t then { s with ovr := true }
  else match t with
    | .reg .ctrl => s.writeCtrl v
    | .reg .status => s.writeStatus v
    | .reg .cmd => s.accept v
    | .reg .result | .reg .frameLen | .reg .crc | .reg .rsp => s
    | .reg r => s.writeParam r v
    | .entry b i => s.setBufByte b i (v.extractLsb' 0 8)

/-- One host access (20_memory R70 to R77): an illegal one gets the error response and changes nothing else (log 9). -/
def State.access (a : Access) (s : State) : State :=
  match a with
  | .read off size =>
    match target s.params off size with
    | some t => s.hostRead t
    | none => s.respond .error
  | .write off size v =>
    match target s.params off size with
    | some t => (s.hostWrite t v).respond .done
    | none => s.respond .error

end Sys2Proof.Machine
end

