-- ==== Sys2Proof/Machine/Bus.lean ====
section
/-! DEFINITION. The bus transaction primitives `SendByte`, `BusWrite`, `BusRead` and `Resync` (42_bus R162 to R167), one line a step,
and the lines of BUS_WRITE, BUS_READ and RESYNC (R170 to R172). -/

namespace Sys2Proof.Machine

/-- One step of `SendByte(b)`; it returns true for OK, false for COMMFAIL (42_bus R162). -/
def sendByteStep (b : Byte) (p : SendPos) (reply : Option BusReply) (s : State) : State × Flow SendPos Bool :=
  match p with
  | .send => onBus (.wrbyte b) reply .send s fun r s => (s, .at (.ifAck r.byte))
  | .ifAck .ack => (s, .ret true)
  | .ifAck a => (s, .at (.ifNack a))
  | .ifNack .nack => onBus .stop reply (.ifNack .nack) s fun _ s => (s.setTState .failed, .ret false)
  | .ifNack _ => (s, .at .ifLost)
  | .ifLost => (s.setTState .failed, .ret false)

/-- `BUS(START)` at the head of a transfer: HELD sets TSTATE and ends the transfer with `fail` (42_bus R163, R164). -/
def startTransfer {P R : Type} (reply : Option BusReply) (here granted : P) (fail : R) (s : State) : State × Flow P R :=
  onBus .start reply here s fun r s => match r.start with
    | .ok => (s, .at granted)
    | .held => (s.setTState .failed, .ret fail)

/-- `if SendByte(b) = COMMFAIL: return COMMFAIL`, going on at `sent` (42_bus R163, R164). -/
def sendOrFail {P R : Type} (b : Byte) (p : SendPos) (reply : Option BusReply) (inside : SendPos → P) (sent : P) (fail : R)
    (s : State) : State × Flow P R :=
  inCall (sendByteStep b p reply s) inside fun ok s => (s, if ok then .at sent else .ret fail)

/-- One step of `BusWrite(DEV_ADDR, wa, payload)`; it returns true for OK, false for COMMFAIL (42_bus R163, R169). -/
def busWriteStep (wa : Half) (payload : List Byte) (p : WritePos) (reply : Option BusReply) (s : State) :
    State × Flow WritePos Bool :=
  match p with
  | .start => startTransfer reply .start (.addr .send) false s
  | .addr p => sendOrFail (addrByte s.devAddr false) p reply .addr .setAddrW false s
  | .setAddrW => (s.setTState .addrW, .at (.forBytes (be16 wa ++ payload)))
  | .forBytes [] => (s, .at .setDataSent)
  | .forBytes (b :: rest) => (s, .at (.byte b rest .send))
  | .byte b rest p => sendOrFail b p reply (.byte b rest) (.forBytes rest) false s
  | .setDataSent => (s.setTState .dataSent, .at .stop)
  | .stop => onBus .stop reply .stop s fun _ s => (s, .at .setStopSent)
  | .setStopSent => (s.setTState .stopSent, .at .setIdle)
  | .setIdle => (s.setTState .idle, .at .retOk)
  | .retOk => (s, .ret true)

/-- One step of `BusRead(DEV_ADDR, wa, n)`; it returns the n bytes, or `none` for COMMFAIL (42_bus R164, R167, R169). -/
def busReadStep (wa : Half) (n : Nat) (p : ReadPos) (reply : Option BusReply) (s : State) :
    State × Flow ReadPos (Option (List Byte)) :=
  match p with
  | .start => startTransfer reply .start (.addrW .send) none s
  | .addrW p => sendOrFail (addrByte s.devAddr false) p reply .addrW .setAddrW none s
  | .setAddrW => (s.setTState .addrW, .at (.forBytes (be16 wa)))
  | .forBytes [] => (s, .at .setDataSent)
  | .forBytes (b :: rest) => (s, .at (.byte b rest .send))
  | .byte b rest p => sendOrFail b p reply (.byte b rest) (.forBytes rest) none s
  | .setDataSent => (s.setTState .dataSent, .at .setRstartPending)
  | .setRstartPending => (s.setTState .rstartPending, .at .rstart)
  | .rstart =>
    onBus .rstart reply .rstart s fun r s => match r.rstart with
      | .ok => (s, .at (.addrR .send))
      | .lost => (s.setTState .failed, .ret none)
  | .addrR p => sendOrFail (addrByte s.devAddr true) p reply .addrR .setAddrR none s
  | .setAddrR => (s.setTState .addrR, .at .rdbytes)
  | .rdbytes => onBus (.rdbytes n) reply .rdbytes s fun r s => (s, .at (.lenCheck r.data))
  | .lenCheck v =>
    if v.length ≠ n then onBus .stop reply (.lenCheck v) s fun _ s => (s.setTState .failed, .ret none)
    else (s, .at (.setDataReceived v))
  | .setDataReceived v => (s.setTState .dataReceived, .at (.stop v))
  | .stop v => onBus .stop reply (.stop v) s fun _ s => (s, .at (.setIdle v))
  | .setIdle v => (s.setTState .idle, .at (.retOk v))
  | .retOk v => (s, .ret (some v))

/-- One step of `Resync()`; it returns true for OK, false for HELD (42_bus R165). -/
def resyncStep (p : ResyncPos) (reply : Option BusReply) (s : State) : State × Flow ResyncPos Bool :=
  match p with
  | .start =>
    onBus .start reply .start s fun r s => match r.start with
      | .ok => (s, .at .dummy)
      | .held => (s, .at .startAgain)
  | .startAgain =>
    onBus .start reply .startAgain s fun r s => match r.start with
      | .ok => (s, .at .dummy)
      | .held => (s, .at .setFailed)
  | .setFailed => (s.setTState .failed, .at .retHeld)
  | .retHeld => (s, .ret false)
  | .dummy => onBus (.dummy 0xFF#8) reply .dummy s fun _ s => (s, .at .stop)
  | .stop => onBus .stop reply .stop s fun _ s => (s, .at .setIdle)
  | .setIdle => (s.setTState .idle, .at .retOk)
  | .retOk => (s, .ret true)

/-- BUS_WRITE's lines (42_bus R170). -/
def busWriteLine (l : BusWriteLine) (reply : Option BusReply) (s : State) : State :=
  match l with
  | .setCheck => (s.setPhase .check).goto (.busWrite .seqCheck)
  | .seqCheck => if s.tstate = .failed then s.complete .seqError else s.goto (.busWrite .lenCheck)
  | .lenCheck =>
    if s.params.maxCmdSize < s.wrLen.toNat then s.complete .badLength else s.goto (.busWrite .setPhase)
  | .setPhase => (s.setPhase .write).goto (.busWrite (.transfer .start))
  | .transfer p =>
    callLine (busWriteStep s.waddr (s.bufSlice .txbuf 0 s.wrLen.toNat) p reply s) (fun p => .busWrite (.transfer p))
      fun ok s => s.goto (.busWrite (.result ok))
  | .result true => s.goto (.complete .ok)
  | .result false => s.complete .commFail

/-- BUS_READ's lines (42_bus R171). -/
def busReadLine (l : BusReadLine) (reply : Option BusReply) (s : State) : State :=
  match l with
  | .setCheck => (s.setPhase .check).goto (.busRead .seqCheck)
  | .seqCheck => if s.tstate = .failed then s.complete .seqError else s.goto (.busRead .lenCheck)
  | .lenCheck =>
    if s.rdLen.toNat < 1 ∨ s.params.rxBufSize < s.rdLen.toNat then s.complete .badLength
    else s.goto (.busRead .setPhase)
  | .setPhase => (s.setPhase .read).goto (.busRead .getLen)
  | .getLen => s.goto (.busRead (.transfer s.rdLen.toNat .start))
  | .transfer n p =>
    callLine (busReadStep s.waddr n p reply s) (fun p => .busRead (.transfer n p)) fun v s => s.goto (.busRead (.result n v))
  | .result _ none => s.goto (.busRead .clearLen)
  | .clearLen => (s.setRxLen 0).goto (.complete .commFail)
  | .result n (some v) => s.goto (.busRead (.bind n v))
  | .bind n v => s.goto (.busRead (.store n v))
  | .store n v => (s.setBufBytes .rxbuf 0 v).goto (.busRead (.setLen n))
  | .setLen n => (s.setRxLen n).goto (.complete .ok)

/-- RESYNC's lines (42_bus R172). -/
def resyncLine (l : ResyncLine) (reply : Option BusReply) (s : State) : State :=
  match l with
  | .setPhase => (s.setPhase .resync).goto (.resync (.run .start))
  | .run p =>
    callLine (resyncStep p reply s) (fun p => .resync (.run p)) fun ok s =>
      if ok then s.goto (.complete .ok) else s.complete .resyncFail

end Sys2Proof.Machine
end

