-- ==== Sys2Proof/Machine/Crc.lean ====
section
/-! DEFINITION. The CRC-16 engine (40_crc R125 to R129) and the lines of the CRC command (R130). -/

namespace Sys2Proof.Machine

/-- One input bit d into the CRC register c: shift left, and XOR in 0x8005 when d and the bit shifted out disagree
(40_crc R125). -/
def crcBit (c : Half) (d : Bool) : Half :=
  if d ^^ c.msb then (c <<< 1) ^^^ 0x8005#16 else c <<< 1

/-- One input byte, bit 7 first (40_crc R126; 90_conflicts C1). -/
def crcByte (c : Half) (b : Byte) : Half :=
  [7, 6, 5, 4, 3, 2, 1, 0].foldl (fun c i => crcBit c (b.getLsbD i)) c

/-- The CRC register after a byte sequence, from 0x0000 (40_crc R125). -/
def crcRegister (s : List Byte) : Half := s.foldl crcByte 0#16

/-- `crc16(s)`, high byte first (40_crc R125, R127). -/
def crc16 (s : List Byte) : List Byte := be16 (crcRegister s)

/-- The CRC command's lines (40_crc R130). -/
def crcLine (src : Buf) (l : CrcLine) (s : State) : State :=
  match l with
  | .setPhase => (s.setPhase .crc).goto (.crc src .setSource)
  | .setSource => s.goto (.crc src (.check (src.size s.params)))
  | .check size => if size < s.crcLen.toNat then s.complete .badLength else s.goto (.crc src .compute)
  | .compute => s.goto (.crc src (.store (crcRegister (s.bufSlice src 0 s.crcLen.toNat))))
  | .store c => State.goto (.complete .ok) { s with crc := c }

end Sys2Proof.Machine
end

