-- ==== Sys2Proof/Machine/Framer.lean ====
section
/-! DEFINITION. The command marshaler and the response unmarshaler (41_framer R135 to R149), and the lines of MARSHAL and
UNMARSHAL. -/

namespace Sys2Proof.Machine

/-- A frame body with its CRC appended (41_framer R135). -/
def withCrc (f : List Byte) : List Byte := f ++ crc16 f

/-- `Marshal(op, mode, p1, p2, len1..len4, D)`: a CommandFrame, or `none` for FRAME_TOO_LARGE (41_framer R135, R137). -/
def marshalFrame (p : Params) (op mode : Byte) (p1 p2 : Half) (l1 l2 l3 l4 : Byte) (d : List Byte) : Option (List Byte) :=
  let len := segmentSum l1 l2 l3 l4
  if p.dbufSize < len then none
  else some (withCrc ([BitVec.ofNat 8 (9 + len), op, mode] ++ be16 p1 ++ be16 p2 ++ d.take len))

/-- `Unmarshal(R, n)`, checks in the order of 41_framer R147 (R145). -/
def unmarshalFrame (r : List Byte) (n : Nat) : Verdict :=
  if n < 4 then .frameShort
  else if crc16 (r.take (n - 2)) ≠ [r.getD (n - 2) 0#8, r.getD (n - 1) 0#8] then .crcError
  else if (r.getD 0 0#8).toNat ≠ n then .frameCountError
  else .valid (r.getD 1 0#8)

/-- The frame MARSHAL and EXECUTE build from the parameter registers and DBUF (41_framer R136, 43_transaction R197). -/
def State.commandFrame (s : State) : Option (List Byte) :=
  marshalFrame s.params s.opcode s.mode s.param1 s.param2 (dlen1 s.dlen) (dlen2 s.dlen) (dlen3 s.dlen) (dlen4 s.dlen)
    (s.bufSlice .dbuf 0 s.params.dbufSize)

/-- MARSHAL's lines (41_framer R136). -/
def marshalLine (l : MarshalLine) (s : State) : State :=
  match l with
  | .setPhase => (s.setPhase .marshal).goto (.marshal .build)
  | .build => s.goto (.marshal (.check s.commandFrame))
  | .check none => s.complete .frameTooLarge
  | .check (some f) => s.goto (.marshal (.getLen f))
  | .getLen f => s.goto (.marshal (.store f f.length))
  | .store f n => (s.setBufBytes .txbuf 0 f).goto (.marshal (.setLen n))
  | .setLen n => (s.setFrameLen n).goto (.complete .ok)

/-- 41_framer R148 for a valid frame of n bytes with status byte `status`: RSP is set, and the completion step with the result of
its code is next, since an output is written in an earlier step (60_exceptions R242). -/
def State.applyStatus (n : Nat) (status : Byte) (s : State) : State :=
  (s.setRsp (validRsp s.params n status)).goto (.complete (deviceResult (deviceCode s.params status)))

/-- UNMARSHAL's lines (41_framer R146). -/
def unmarshalLine (l : UnmarshalLine) (s : State) : State :=
  match l with
  | .setPhase => (s.setPhase .unmarshal).goto (.unmarshal .clearRsp)
  | .clearRsp => (s.setRsp noFrame).goto (.unmarshal .getLen)
  | .getLen => s.goto (.unmarshal (.check s.rxLen.toNat))
  | .check n => if s.params.rxBufSize < n then s.complete .badLength else s.goto (.unmarshal (.run n))
  | .run n => s.goto (.unmarshal (.checkFrame n (unmarshalFrame (s.bufSlice .rxbuf 0 n) n)))
  | .checkFrame n (.valid status) => s.goto (.unmarshal (.apply n status))
  | .checkFrame _ .frameShort => s.complete .frameShort
  | .checkFrame _ .crcError => s.complete .crcError
  | .checkFrame _ .frameCountError => s.complete .frameCountError
  | .apply n status => s.applyStatus n status

end Sys2Proof.Machine
end

