-- ==== Sys2Proof/Machine/Transaction.lean ====
section
/-! DEFINITION. The transaction sequencer: the command write with bounded retry (43_transaction R199) and the lines of
EXECUTE (R195, R205). -/

namespace Sys2Proof.Machine

/-- The first step of `WriteWithRetry` (43_transaction R199). -/
def retryStart : RetryPos := { attempt := 1, line := .head }

/-- One step of `WriteWithRetry(f)` at IOADDR, with the snapshotted RETRIES; it returns OK, COMM_FAIL or RESYNC_FAIL
(43_transaction R199 to R201). -/
def retryStep (f : List Byte) (p : RetryPos) (reply : Option BusReply) (s : State) : State × Flow RetryPos ResultCode :=
  match p.line with
  | .head => (s, .at { p with line := if p.attempt ≤ 1 + s.snapRetries then .setWrite else .exhausted })
  | .setWrite => (s.setPhase .write, .at { p with line := .setAttempts })
  | .setAttempts => (s.setAttempts p.attempt, .at { p with line := .write .start })
  | .write w =>
    inCall (busWriteStep s.ioaddr f w reply s) (fun w => { p with line := .write w }) fun ok s =>
      (s, if ok then .ret .ok else .at { p with line := .setResync })
  | .setResync => (s.setPhase .resync, .at { p with line := .resync .start })
  | .resync q =>
    inCall (resyncStep q reply s) (fun q => { p with line := .resync q }) fun ok s =>
      (s, if ok then .at { attempt := p.attempt + 1, line := .head } else .ret .resyncFail)
  | .exhausted => (s, .ret .commFail)

/-- How many bytes the body read fetches: Count - 1 in CONTINUE mode, Count in RESTART mode (43_transaction R204). -/
def bodyLength (p : Params) (c : Byte) : Nat :=
  match p.respReadMode with
  | .continue => c.toNat - 1
  | .restart => c.toNat

/-- EXECUTE's lines (43_transaction R195 to R207). -/
def executeLine (wakeFirst : Bool) (l : ExecuteLine) (reply : Option BusReply) (s : State) : State :=
  let go (l' : ExecuteLine) (t : State) : State := t.goto (.execute wakeFirst l')
  match l with
  | .setCheck => go .clearRsp (s.setPhase .check)
  | .clearRsp => go .seqCheck (s.setRsp noFrame)
  | .seqCheck => if s.tstate = .failed then s.complete .seqError else go .lenCheck s
  | .lenCheck =>
    if s.respLen.toNat < 4 ∨ s.params.rxBufSize < s.respLen.toNat then s.complete .badLength else go .setMarshal s
  | .setMarshal => go .build (s.setPhase .marshal)
  | .build => go (.check s.commandFrame) s
  | .check none => s.complete .frameTooLarge
  | .check (some f) => go (.store f) s
  | .store f => go .ifWake ((s.setBufBytes .txbuf 0 f).setFrameLen f.length)
  | .ifWake => go (if wakeFirst then .setWake else .write retryStart) s
  | .setWake => go .pulse (s.setPhase .wake)
  | .pulse =>
    match reply with
    | none => s.await wakePulse
    | some r => go (.write retryStart) (s.answered wakePulse r)
  | .write p =>
    callLine (retryStep (s.bufSlice .txbuf 0 s.frameLen.toNat) p reply s) (fun p => .execute wakeFirst (.write p))
      fun w => go (.result w)
  | .result w => if w = .ok then go .setWait s else s.complete w
  | .setWait => go .wait (s.setPhase .wait)
  | .wait => go .setReadCount (s.recordWait (Config.procDelay s.opcode s.mode))
  | .setReadCount => go (.readCount .start) (s.setPhase .readCount)
  | .readCount p =>
    callLine (busReadStep s.ioaddr 1 p reply s) (fun p => .execute wakeFirst (.readCount p)) fun v => go (.countResult v)
  | .countResult none => go .failClearLen s
  | .countResult (some v) => go (.bindCount v) s
  | .bindCount v => go (.storeCount (v.getD 0 0#8)) s
  | .storeCount c => go (.shortCheck c) ((s.setBufByte .rxbuf 0 c).setRxLen 1)
  | .shortCheck c => if c.toNat < 4 then s.complete .frameShort else go (.longCheck c) s
  | .longCheck c => if s.respLen.toNat < c.toNat then s.complete .frameCountError else go (.setReadBody c) s
  | .setReadBody c => go (.ifContinue c) (s.setPhase .readBody)
  | .ifContinue c => go (.readBody c .start) s
  | .readBody c p =>
    callLine (busReadStep s.ioaddr (bodyLength s.params c) p reply s) (fun p => .execute wakeFirst (.readBody c p))
      fun v => go (.bodyResult c v)
  | .bodyResult _ none => go .failClearLen s
  | .bodyResult c (some v) => go (.bindBody c v) s
  | .bindBody c v => go (.storeBody c v) s
  | .storeBody c v =>
    match s.params.respReadMode with
    | .continue => go (.setUnmarshal c) ((s.setBufBytes .rxbuf 1 v).setRxLen c.toNat)
    | .restart => go (.restartCheck c v) ((s.setBufBytes .rxbuf 0 v).setRxLen c.toNat)
  | .restartCheck c v => if v.getD 0 0#8 ≠ c then s.complete .frameCountError else go (.setUnmarshal c) s
  | .setUnmarshal c => go (.unmarshal c) (s.setPhase .unmarshal)
  | .unmarshal c => go (.checkFrame c (unmarshalFrame (s.bufSlice .rxbuf 0 c.toNat) c.toNat)) s
  | .checkFrame c (.valid status) => go (.apply c status) s
  | .checkFrame _ .frameShort => s.complete .frameShort
  | .checkFrame _ .crcError => s.complete .crcError
  | .checkFrame _ .frameCountError => s.complete .frameCountError
  | .apply c status => s.applyStatus c.toNat status
  | .failClearLen => go .failSetResync (s.setRxLen 0)
  | .failSetResync => go (.failResync .start) (s.setPhase .resync)
  | .failResync p =>
    callLine (resyncStep p reply s) (fun p => .execute wakeFirst (.failResync p)) fun ok s =>
      if ok then s.goto (.complete .commFail) else s.complete .resyncFail

end Sys2Proof.Machine
end

