-- ==== Sys2Proof/Machine/WakeSleep.lean ====
section
/-! DEFINITION. The wake/sleep sequencer: the lines of WAKE (44_wake_sleep R225) and SLEEP (R228). -/

namespace Sys2Proof.Machine

/-- WAKE's lines (44_wake_sleep R225, R226). -/
def wakeLine (l : WakeLine) (reply : Option BusReply) (s : State) : State :=
  match l with
  | .setPhase => (s.setPhase .wake).goto (.wake .pulse)
  | .pulse =>
    match reply with
    | none => s.await wakePulse
    | some r => (s.answered wakePulse r).goto (.complete .ok)

/-- The mode byte of the sleep or the idle frame (44_wake_sleep R228, R229). -/
def sleepModeByte (p : Params) (idle : Bool) : Byte := if idle then p.idleMode else p.sleepMode

/-- Marshal(SLEEP_OPCODE, m, 0, 0, no data): with no data it cannot be too large (44_wake_sleep R228, R229). -/
def oneWayFrame (p : Params) (m : Byte) : List Byte :=
  (marshalFrame p p.sleepOpcode m 0#16 0#16 0#8 0#8 0#8 0#8 []).getD []

/-- The sleep or idle frame (44_wake_sleep R229). -/
def sleepFrame (p : Params) (idle : Bool) : List Byte := oneWayFrame p (sleepModeByte p idle)

/-- SLEEP's lines (44_wake_sleep R228). -/
def sleepLine (idle : Bool) (l : SleepLine) (reply : Option BusReply) (s : State) : State :=
  match l with
  | .setCheck => (s.setPhase .check).goto (.sleep idle .seqCheck)
  | .seqCheck => if s.tstate = .failed then s.complete .seqError else s.goto (.sleep idle .setMarshal)
  | .setMarshal => (s.setPhase .marshal).goto (.sleep idle .setMode)
  | .setMode => s.goto (.sleep idle (.build (sleepModeByte s.params idle)))
  | .build m => s.goto (.sleep idle (.store (oneWayFrame s.params m)))
  | .store f => ((s.setBufBytes .txbuf 0 f).setFrameLen f.length).goto (.sleep idle (.write retryStart))
  | .write p =>
    callLine (retryStep (s.bufSlice .txbuf 0 s.frameLen.toNat) p reply s) (fun p => .sleep idle (.write p))
      fun w s => s.goto (.sleep idle (.result w))
  | .result w => if w = .ok then s.goto (.complete .ok) else s.complete w

end Sys2Proof.Machine
end

