-- ==== Sys2Proof/Machine/Sequencer.lean ====
section
/-! DEFINITION. The sequencer: the first line of each command, one controller step (00_scope R26), one move of any agent,
the run of a command over the moves still to come, and the next move of the machine. -/

namespace Sys2Proof.Machine

/-- A command's first line (30_encoding R110 with each command's own rule). -/
def firstLine : Instr → Pos
  | .crcDbuf => .crc .dbuf .setPhase
  | .crcTxbuf => .crc .txbuf .setPhase
  | .crcRxbuf => .crc .rxbuf .setPhase
  | .marshal => .marshal .setPhase
  | .unmarshal => .unmarshal .setPhase
  | .busWrite => .busWrite .setCheck
  | .busRead => .busRead .setCheck
  | .resync => .resync .setPhase
  | .execute wakeFirst => .execute wakeFirst .setCheck
  | .wake => .wake .setPhase
  | .sleep idle => .sleep idle .setCheck

/-- The step at a line of a command, with the environment's reply for a bus action (00_scope R26; log 2). The position
`accepted` is no line. -/
def lineStep (p : Pos) (reply : Option BusReply) (s : State) : State :=
  match p with
  | .accepted => s
  | .crc src l => crcLine src l s
  | .marshal l => marshalLine l s
  | .unmarshal l => unmarshalLine l s
  | .busWrite l => busWriteLine l reply s
  | .busRead l => busReadLine l reply s
  | .resync l => resyncLine l reply s
  | .execute wakeFirst l => executeLine wakeFirst l reply s
  | .wake l => wakeLine l reply s
  | .sleep idle l => sleepLine idle l reply s
  | .complete code => s.complete code

/-- The controller's step: nothing while no command runs (10_state R62). The step after acceptance decodes the word: an
illegal one "raises BAD_COMMAND at once, and a legal word runs its command's rule from its first line" (60_exceptions R241;
log 11). -/
def State.ctrlStep (reply : Option BusReply) (s : State) : State :=
  match s.seq with
  | none => s
  | some q =>
    match q.pos with
    | .accepted =>
      match decode q.word with
      | .ok i => lineStep (firstLine i) reply s
      | .error _ => s.complete .badCommand
    | p => lineStep p reply s

/-- One move of one agent (00_scope R26). -/
def State.advance (t : Turn) (s : State) : State :=
  match t with
  | .host a => s.access a
  | .reset => s.resetStep
  | .ctrl reply => s.ctrlStep reply

/-- The moves still to come, one after another, until no command runs (completion or reset) or none is left: a command that
has run out of moves stays at its position (log 1, 2). -/
def State.runTurns : List Turn → State → State
  | [], s => { s with turns := [] }
  | t :: rest, s =>
    match s.seq with
    | none => { s with turns := t :: rest }
    | some _ => State.runTurns rest (State.advance t { s with turns := rest })

/-- An accepted word's command starts at its first line; a command in progress is where it was (60_exceptions R241). -/
def State.begin (p : Pos) (s : State) : State :=
  { s with seq := s.seq.map fun q => if q.pos = .accepted then { q with pos := p } else q }

/-- A command runs over the moves still to come. -/
def State.runCommand (i : Instr) (s : State) : State := State.runTurns s.turns (s.begin (firstLine i))

/-- The next move, `run` being the meanings of the commands. With no move left nothing moves (log 1). A host access or a reset is
one step. The controller's turn while a command runs fetches the snapshotted word, decodes it and runs its command; an illegal
word completes with BAD_COMMAND (60_exceptions R241). -/
def State.nextMove (run : Instr → State → Host.Outcome State Fault Refusal) (s : State) : Host.Outcome State Fault Refusal :=
  match s.turns with
  | [] => .next s
  | .ctrl reply :: rest =>
    match s.seq with
    | none => .next { s with turns := rest }
    | some q =>
      match decode q.word with
      | .ok i => run i s
      | .error _ => .next (State.ctrlStep reply { s with turns := rest })
  | .host a :: rest => .next (State.access a { s with turns := rest })
  | .reset :: rest => .next (State.resetStep { s with turns := rest })

/-- The state in which word w has just been accepted (60_exceptions R241), and the next moves are the controller's own, the
environment answering none of its bus actions: the very next step decodes and runs the word (log 13). -/
def State.placeWord (w : Word) (s : State) : State := { s.accept w with turns := List.replicate 16 (.ctrl none) }

end Sys2Proof.Machine
end

