-- ==== Sys2Proof/Machine/Commands.lean ====
section
/-! DEFINITION. The meaning of each command: it runs, from its first line or from where it was, over the moves still to come
(host accesses, resets, and controller steps with the environment's replies), until it completes or no move is left (log 2).
The lines are those of the file of its family. -/

namespace Sys2Proof.Machine

/-- `CRC.DBUF` (40_crc R130). -/
def execCrcDbuf (s : State) : Host.Outcome State Fault Refusal := .next (s.runCommand .crcDbuf)

/-- `CRC.TXBUF` (40_crc R130). -/
def execCrcTxbuf (s : State) : Host.Outcome State Fault Refusal := .next (s.runCommand .crcTxbuf)

/-- `CRC.RXBUF` (40_crc R130). -/
def execCrcRxbuf (s : State) : Host.Outcome State Fault Refusal := .next (s.runCommand .crcRxbuf)

/-- `MARSHAL` (41_framer R136). -/
def execMarshal (s : State) : Host.Outcome State Fault Refusal := .next (s.runCommand .marshal)

/-- `UNMARSHAL` (41_framer R146). -/
def execUnmarshal (s : State) : Host.Outcome State Fault Refusal := .next (s.runCommand .unmarshal)

/-- `BUS_WRITE` (42_bus R170). -/
def execBusWrite (s : State) : Host.Outcome State Fault Refusal := .next (s.runCommand .busWrite)

/-- `BUS_READ` (42_bus R171). -/
def execBusRead (s : State) : Host.Outcome State Fault Refusal := .next (s.runCommand .busRead)

/-- `RESYNC` (42_bus R172). -/
def execResync (s : State) : Host.Outcome State Fault Refusal := .next (s.runCommand .resync)

/-- `EXECUTE`, `EXECUTE wake` (43_transaction R195). -/
def execExecute (wakeFirst : Bool) (s : State) : Host.Outcome State Fault Refusal :=
  .next (s.runCommand (.execute wakeFirst))

/-- `WAKE` (44_wake_sleep R225). -/
def execWake (s : State) : Host.Outcome State Fault Refusal := .next (s.runCommand .wake)

/-- `SLEEP`, `SLEEP idle` (44_wake_sleep R228). -/
def execSleep (idle : Bool) (s : State) : Host.Outcome State Fault Refusal := .next (s.runCommand (.sleep idle))

end Sys2Proof.Machine
end

