-- ==== Sys2Proof/Machine/Dispatch.lean ====
section
/-! DEFINITION. One arm per command, each one direct call of its meaning. -/

namespace Sys2Proof.Machine

def exec (i : Instr) (s : State) : Host.Outcome State Fault Refusal :=
  match i with
  | .crcDbuf => Sys2Proof.Machine.execCrcDbuf s
  | .crcTxbuf => Sys2Proof.Machine.execCrcTxbuf s
  | .crcRxbuf => Sys2Proof.Machine.execCrcRxbuf s
  | .marshal => Sys2Proof.Machine.execMarshal s
  | .unmarshal => Sys2Proof.Machine.execUnmarshal s
  | .busWrite => Sys2Proof.Machine.execBusWrite s
  | .busRead => Sys2Proof.Machine.execBusRead s
  | .resync => Sys2Proof.Machine.execResync s
  | .execute wakeFirst => Sys2Proof.Machine.execExecute wakeFirst s
  | .wake => Sys2Proof.Machine.execWake s
  | .sleep idle => Sys2Proof.Machine.execSleep idle s

end Sys2Proof.Machine
end

