-- ==== Sys2Proof/Machine/Step.lean ====
section
/-! DEFINITION. One step of the machine: the next move, or, where it is the controller's and a command runs, that command. -/

namespace Sys2Proof.Machine

/-- The machine's step. -/
def step (s : State) : Host.Outcome State Fault Refusal := s.nextMove exec

/-- The state in which the command word with bits w has just been accepted, and its command runs next (log 13). -/
def State.withFetchWord (s : State) (nbits w : Nat) : State := s.placeWord (BitVec.ofNat 32 (w % 2 ^ nbits))

end Sys2Proof.Machine
end

