-- ==== Sys2Proof/WellFormed.lean ====
section
/-! DEFINITION. Well-formedness: of a command, and of the parameters a controller is built with. -/

namespace Sys2Proof

/-- Every term of `Instr` is a legal command: the rows of 30_encoding R110 have no field beyond the two one-bit flags, and
each flag may have either value (R98, R99). -/
def Instr.wellFormed : Instr → Bool
  | .crcDbuf | .crcTxbuf | .crcRxbuf => true
  | .marshal | .unmarshal => true
  | .busWrite | .busRead | .resync => true
  | .execute _ => true
  | .wake => true
  | .sleep _ => true

/-- The twelve named status codes, in the order of 41_framer R150. -/
def DeviceCode.named : List DeviceCode :=
  [.success, .boundaryError, .rwConfigError, .badAddress, .countError, .nonceError, .macError, .parseError,
   .dataMismatch, .lockError, .keyError, .tempSenseError]

/-- A legal STATUS_TABLE (00_scope R11, 41_framer R151): each of the codes 0..11 has one byte, the bytes are distinct, 0x00
is SUCCESS, and 0xC7 is not in the table. -/
def Params.tableLegal (p : Params) : Bool :=
  p.statusTable.map Prod.snd == DeviceCode.named
    && decide ((p.statusTable.map Prod.fst).Nodup)
    && p.statusTable.head? == some (0x00#8, .success)
    && !(p.statusTable.map Prod.fst).contains 0xC7#8

/-- Legal parameters: 9 ≤ MAX_CMD_SIZE ≤ 128 (00_scope R8), 4 ≤ RX_BUF_SIZE ≤ 128 (R10) and a legal table (R11). Every
value of the other parameters is legal. -/
def Params.legal (p : Params) : Bool :=
  decide (9 ≤ p.maxCmdSize) && decide (p.maxCmdSize ≤ 128)
    && decide (4 ≤ p.rxBufSize) && decide (p.rxBufSize ≤ 128) && p.tableLegal

end Sys2Proof
end

