-- ==== Sys2Proof/Safety.lean ====
section
/-! DEFINITION. What claims are stated in: the invariants of the controller's state (10_state R68 and the rules each clause
cites), shapes of schedules, and traces of whole transfers. -/

namespace Sys2Proof.Machine

/-! ## Which TSTATE, PHASE, ATTEMPTS and pending action go with a position -/

/-- TSTATE between transfers: IDLE or FAILED (10_state R37, R68). -/
def TState.settled (t : TState) : Bool := t == .idle || t == .failed

/-- TSTATE inside `BusWrite` (42_bus R163, R166). -/
def WritePos.tstateOk (t : TState) : WritePos → Bool
  | .start | .addr _ | .setAddrW => t == .idle
  | .forBytes _ | .byte _ _ _ | .setDataSent => t == .addrW
  | .stop | .setStopSent => t == .dataSent
  | .setIdle => t == .stopSent
  | .retOk => t == .idle

/-- TSTATE inside `BusRead` (42_bus R164, R166). -/
def ReadPos.tstateOk (t : TState) : ReadPos → Bool
  | .start | .addrW _ | .setAddrW => t == .idle
  | .forBytes _ | .byte _ _ _ | .setDataSent => t == .addrW
  | .setRstartPending => t == .dataSent
  | .rstart | .addrR _ | .setAddrR => t == .rstartPending
  | .rdbytes | .lenCheck _ | .setDataReceived _ => t == .addrR
  | .stop _ | .setIdle _ => t == .dataReceived
  | .retOk _ => t == .idle

/-- TSTATE inside `Resync`, entered with a TSTATE that `before` allows (42_bus R165, R166). -/
def ResyncPos.tstateOk (before : TState → Bool) (t : TState) : ResyncPos → Bool
  | .start | .startAgain | .setFailed | .dummy | .stop | .setIdle => before t
  | .retHeld => t == .failed
  | .retOk => t == .idle

/-- TSTATE inside `WriteWithRetry` (43_transaction R199, 42_bus R166). -/
def RetryPos.tstateOk (t : TState) (p : RetryPos) : Bool :=
  match p.line with
  | .head | .setWrite | .setAttempts | .exhausted => t == .idle
  | .write w => w.tstateOk t
  | .setResync => t == .failed
  | .resync q => q.tstateOk (· == .failed) t

/-- TSTATE where a command write has answered w: RESYNC_FAIL leaves FAILED, OK and COMM_FAIL leave IDLE (43_transaction R200,
R201). -/
def TState.okAfter (t : TState) (w : ResultCode) : Bool :=
  if w = .ok ∨ w = .commFail then t == .idle else t == .failed

/-- TSTATE at a position (42_bus R166, 10_state R68). -/
def Pos.tstateOk (t : TState) : Pos → Bool
  | .accepted | .complete _ => t.settled
  | .crc _ _ | .marshal _ | .unmarshal _ | .wake _ => t.settled
  | .resync l => match l with
    | .setPhase => t.settled
    | .run p => p.tstateOk TState.settled t
  | .busWrite l => match l with
    | .setCheck | .seqCheck => t.settled
    | .lenCheck | .setPhase | .result true => t == .idle
    | .transfer p => p.tstateOk t
    | .result false => t == .failed
  | .busRead l => match l with
    | .setCheck | .seqCheck => t.settled
    | .lenCheck | .setPhase | .getLen | .result _ (some _) | .bind _ _ | .store _ _ | .setLen _ => t == .idle
    | .transfer _ p => p.tstateOk t
    | .result _ none | .clearLen => t == .failed
  | .sleep _ l => match l with
    | .setCheck | .seqCheck => t.settled
    | .setMarshal | .setMode | .build _ | .store _ => t == .idle
    | .write p => p.tstateOk t
    | .result w => t.okAfter w
  | .execute _ l => match l with
    | .setCheck | .clearRsp | .seqCheck => t.settled
    | .lenCheck | .setMarshal | .build | .check _ | .store _ | .ifWake | .setWake | .pulse => t == .idle
    | .write p => p.tstateOk t
    | .result w => t.okAfter w
    | .setWait | .wait | .setReadCount => t == .idle
    | .readCount p => p.tstateOk t
    | .countResult (some _) | .bindCount _ | .storeCount _ | .shortCheck _ | .longCheck _ => t == .idle
    | .setReadBody _ | .ifContinue _ => t == .idle
    | .readBody _ p => p.tstateOk t
    | .bodyResult _ (some _) | .bindBody _ _ | .storeBody _ _ | .restartCheck _ _ => t == .idle
    | .setUnmarshal _ | .unmarshal _ | .checkFrame _ _ | .apply _ _ => t == .idle
    | .countResult none | .bodyResult _ none | .failClearLen | .failSetResync => t == .failed
    | .failResync p => p.tstateOk (· == .failed) t

/-- PHASE inside `WriteWithRetry`: WRITE and RESYNC alternate, the first attempt coming from `before`
(43_transaction R199, R210). -/
def RetryPos.phaseOk (before : List Phase) (f : Phase) (p : RetryPos) : Bool :=
  decide (1 ≤ p.attempt) && match p.line with
    | .head | .setWrite => if p.attempt = 1 then before.contains f else f == .resync
    | .setAttempts | .write _ | .setResync => f == .write
    | .resync _ | .exhausted => f == .resync

/-- PHASE at a position (10_state R36; each command's rule; 43_transaction R210). -/
def Pos.phaseOk (f : Phase) : Pos → Bool
  | .accepted => f == .check
  | .complete _ => f != .idle
  | .crc _ l => f == if l = .setPhase then .check else .crc
  | .marshal l => f == if l = .setPhase then .check else .marshal
  | .unmarshal l => f == if l = .setPhase then .check else .unmarshal
  | .resync l => f == if l = .setPhase then .check else .resync
  | .wake l => f == if l = .setPhase then .check else .wake
  | .busWrite l => match l with
    | .setCheck | .seqCheck | .lenCheck | .setPhase => f == .check
    | .transfer _ | .result _ => f == .write
  | .busRead l => match l with
    | .setCheck | .seqCheck | .lenCheck | .setPhase => f == .check
    | .getLen | .transfer _ _ | .result _ _ | .clearLen | .bind _ _ | .store _ _ | .setLen _ => f == .read
  | .sleep _ l => match l with
    | .setCheck | .seqCheck | .setMarshal => f == .check
    | .setMode | .build _ | .store _ => f == .marshal
    | .write p => p.phaseOk [.marshal] f
    | .result w => f == if w = .ok then .write else .resync
  | .execute _ l => match l with
    | .setCheck | .clearRsp | .seqCheck | .lenCheck | .setMarshal => f == .check
    | .build | .check _ | .store _ | .ifWake | .setWake => f == .marshal
    | .pulse => f == .wake
    | .write p => p.phaseOk [.marshal, .wake] f
    | .result w => f == if w = .ok then .write else .resync
    | .setWait => f == .write
    | .wait | .setReadCount => f == .wait
    | .readCount _ | .countResult _ | .bindCount _ | .storeCount _ | .shortCheck _ | .longCheck _ | .setReadBody _ =>
      f == .readCount
    | .ifContinue _ | .readBody _ _ | .bodyResult _ _ | .bindBody _ _ | .storeBody _ _ | .restartCheck _ _ | .setUnmarshal _ =>
      f == .readBody
    | .unmarshal _ | .checkFrame _ _ | .apply _ _ => f == .unmarshal
    | .failClearLen | .failSetResync => f == .readCount || f == .readBody
    | .failResync _ => f == .resync

/-- ATTEMPTS inside `WriteWithRetry`: the loop counter counts up to 1 + k, and ATTEMPTS equals it once the line that sets it has
run (43_transaction R199, R200). -/
def RetryPos.attemptsOk (k n : Nat) (p : RetryPos) : Bool :=
  decide (1 ≤ p.attempt) && match p.line with
    | .head => decide (p.attempt ≤ 2 + k) && n + 1 == p.attempt
    | .exhausted => p.attempt == 2 + k && n + 1 == p.attempt
    | .setWrite | .setAttempts => decide (p.attempt ≤ 1 + k) && n + 1 == p.attempt
    | .write _ | .setResync | .resync _ => decide (p.attempt ≤ 1 + k) && n == p.attempt

/-- ATTEMPTS at a position, with k the snapshotted RETRIES: 0 until a command write, then the attempts made so far, at most
1 + k (10_state R38, 43_transaction R200). -/
def Pos.attemptsOk (k n : Nat) : Pos → Bool
  | .sleep _ (.write p) | .execute _ (.write p) => p.attemptsOk k n
  | .sleep _ (.result _) => decide (1 ≤ n) && decide (n ≤ 1 + k)
  | .sleep _ _ => n == 0
  | .execute _ l => match l with
    | .setCheck | .clearRsp | .seqCheck | .lenCheck | .setMarshal | .build | .check _ | .store _ | .ifWake | .setWake
    | .pulse => n == 0
    | _ => decide (1 ≤ n) && decide (n ≤ 1 + k)
  | .complete _ => decide (n ≤ 1 + k)
  | _ => n == 0

/-- The action `SendByte(b)` issues at a position (42_bus R162). -/
def SendPos.action (b : Byte) : SendPos → Option Action
  | .send => some (.wrbyte b)
  | .ifNack .nack => some .stop
  | .ifAck _ | .ifNack _ | .ifLost => none

/-- The action `BusWrite` issues at a position (42_bus R163). -/
def WritePos.action (devAddr : BitVec 7) : WritePos → Option Action
  | .start => some .start
  | .addr p => p.action (addrByte devAddr false)
  | .byte b _ p => p.action b
  | .stop => some .stop
  | .setAddrW | .forBytes _ | .setDataSent | .setStopSent | .setIdle | .retOk => none

/-- The action `BusRead` of n bytes issues at a position (42_bus R164). -/
def ReadPos.action (devAddr : BitVec 7) (n : Nat) : ReadPos → Option Action
  | .start => some .start
  | .addrW p => p.action (addrByte devAddr false)
  | .byte b _ p => p.action b
  | .rstart => some .rstart
  | .addrR p => p.action (addrByte devAddr true)
  | .rdbytes => some (.rdbytes n)
  | .lenCheck v => if v.length ≠ n then some .stop else none
  | .stop _ => some .stop
  | .setAddrW | .forBytes _ | .setDataSent | .setRstartPending | .setAddrR | .setDataReceived _ | .setIdle _ | .retOk _ => none

/-- The action `Resync` issues at a position (42_bus R165). -/
def ResyncPos.action : ResyncPos → Option Action
  | .start | .startAgain => some .start
  | .dummy => some (.dummy 0xFF#8)
  | .stop => some .stop
  | .setFailed | .retHeld | .setIdle | .retOk => none

/-- The action `WriteWithRetry` issues at a position (43_transaction R199). -/
def RetryPos.action (devAddr : BitVec 7) (p : RetryPos) : Option Action :=
  match p.line with
  | .write w => w.action devAddr
  | .resync q => q.action
  | .head | .setWrite | .setAttempts | .setResync | .exhausted => none

/-- The bus action the controller issues at a position, if the step there is a bus step (00_scope R5). -/
def State.actionAt (s : State) : Pos → Option Action
  | .busWrite (.transfer p) => p.action s.devAddr
  | .busRead (.transfer n p) => p.action s.devAddr n
  | .resync (.run p) => p.action
  | .wake .pulse => some wakePulse
  | .sleep _ (.write p) => p.action s.devAddr
  | .execute _ .pulse => some wakePulse
  | .execute _ (.write p) => p.action s.devAddr
  | .execute _ (.readCount p) => p.action s.devAddr 1
  | .execute _ (.readBody c p) => p.action s.devAddr (bodyLength s.params c)
  | .execute _ (.failResync p) => p.action
  | _ => none

/-! ## Invariants -/

/-- Between commands and inside one (10_state R33, R36, R64, R68): BUSY says whether a command runs; with none, PHASE is IDLE,
TSTATE is IDLE or FAILED and nothing is pending; with one, DONE is clear (60_exceptions R241), PHASE and TSTATE are those of
the position, and a pending action is the one the position issues. -/
def State.controlOk (s : State) : Bool :=
  match s.seq with
  | none => !s.busy && s.phase == .idle && s.tstate.settled && s.pending.isNone
  | some q => s.busy && !s.done && q.pos.phaseOk s.phase && q.pos.tstateOk s.tstate
      && (s.pending.isNone || s.pending == s.actionAt q.pos)

/-- ATTEMPTS never exceeds 8 and follows the loop counter (10_state R38, 43_transaction R200). -/
def State.attemptsOk (s : State) : Bool :=
  decide (s.attempts.toNat ≤ 8) &&
    match s.seq with
    | none => true
    | some q => q.pos.attemptsOk q.retries.toNat s.attempts.toNat

/-- The parameters are legal (00_scope section 5) and the buffer memory is in its canonical form (log 17). -/
def State.memoryOk (s : State) : Bool := s.params.legal && Memory.wf s.params s.mem

/-- RSP holds either the "no frame" value, or a valid frame's status byte with its own code (10_state R56, 41_framer R148). -/
def State.rspOk (s : State) : Bool :=
  s.rsp == noFrame || (s.rsp.valid && s.rsp.code == deviceCode s.params s.rsp.status)

/-! ## Schedules -/

/-- Not the reset input. -/
def Turn.notReset : Turn → Bool
  | .reset => false
  | .host _ | .ctrl _ => true

/-- A host access. -/
def Turn.isHost : Turn → Bool
  | .host _ => true
  | .ctrl _ | .reset => false

/-- A controller step, answered or not. -/
def Turn.isCtrl : Turn → Bool
  | .ctrl _ => true
  | .host _ | .reset => false

/-- A controller step whose bus action, if it is one, the environment answers. -/
def Turn.answered : Turn → Bool
  | .ctrl (some _) => true
  | .ctrl none | .host _ | .reset => false

/-- A controller step with this reply of the environment. -/
def Turn.replies (ok : BusReply → Bool) : Turn → Bool
  | .ctrl (some r) => ok r
  | .ctrl none | .host _ | .reset => false

/-- A reply that grants every Start and acknowledges every byte. -/
def BusReply.grants (r : BusReply) : Bool := r.start == .ok && r.rstart == .ok && r.byte == .ack

/-- A reply that grants every Start and acknowledges every byte, and delivers v to a read. -/
def BusReply.delivers (v : List Byte) (r : BusReply) : Bool := r.grants && r.data == v

/-- A reply that grants a Start and does not acknowledge a byte. -/
def BusReply.nacks (r : BusReply) : Bool := r.start == .ok && r.byte == .nack

/-- A reply that grants a Start and takes the bus from the controller while it sends. -/
def BusReply.steals (r : BusReply) : Bool := r.start == .ok && r.byte == .lost

/-- A reply that holds the bus at a Start. -/
def BusReply.holds (r : BusReply) : Bool := r.start == .held

/-- A command word has just been accepted (60_exceptions R241). -/
def State.atStart (s : State) : Bool :=
  match s.seq with
  | none => false
  | some q => q.pos == .accepted

/-- An upper bound on the controller's steps in one command, a line a step (log 2): for EXECUTE at most 1 + k attempts of at most
3 MAX_CMD_SIZE + 22 lines each, a write transfer and a resync with the lines between them, and 80 others, the two reads among them
(43_transaction R210). The other commands' paths are no longer. -/
def State.stepBound (s : State) : Nat := 80 + (1 + s.snapRetries) * (3 * s.params.maxCmdSize + 22)

/-! ## What the host reads -/

/-- The registers that read as their value at any time, BUSY = 1 included (20_memory R72, R74), each by its offset. -/
def State.liveWords (s : State) : List (Nat × Word) :=
  [(0x000, s.ctrlWord), (0x004, s.statusWord), (0x008, s.cmd), (0x010, s.devAddr.zeroExtend 32), (0x014, s.waddr.zeroExtend 32),
   (0x018, s.ioaddr.zeroExtend 32), (0x01C, s.opcode.zeroExtend 32), (0x020, s.mode.zeroExtend 32),
   (0x024, s.param1.zeroExtend 32), (0x028, s.param2.zeroExtend 32), (0x02C, s.dlen), (0x030, s.wrLen.zeroExtend 32),
   (0x034, s.rdLen.zeroExtend 32), (0x038, s.crcLen.zeroExtend 32), (0x03C, s.respLen.zeroExtend 32)]

/-- The registers that read as their value while BUSY = 0 only (20_memory R72, R74), each by its offset. -/
def State.outputWords (s : State) : List (Nat × Word) :=
  [(0x00C, s.result.byte.zeroExtend 32), (0x040, s.frameLen.zeroExtend 32), (0x044, s.rxLen.zeroExtend 32),
   (0x048, s.crc.zeroExtend 32), (0x04C, s.rsp.word)]

/-! ## Outcomes of a received frame (41_framer R148) -/

/-- RSP after a frame of n bytes was checked: the decoded response of a valid frame, "no frame" after a frame error. -/
def Verdict.rsp (p : Params) (n : Nat) : Verdict → Rsp
  | .valid status => validRsp p n status
  | .frameShort | .crcError | .frameCountError => noFrame

/-- RESULT after a frame was checked. -/
def Verdict.result (p : Params) : Verdict → ResultCode
  | .valid status => deviceResult (deviceCode p status)
  | .frameShort => .frameShort
  | .crcError => .crcError
  | .frameCountError => .frameCountError

/-! ## Traces of whole transfers (42_bus R161) -/

/-- A write transfer with every byte acknowledged (30_encoding R106). -/
def writeTrace (devAddr : BitVec 7) (wa : Half) (payload : List Byte) : List Event :=
  [.start .ok, .wrbyte (addrByte devAddr false) .ack] ++ (be16 wa ++ payload).map (fun b => .wrbyte b .ack) ++ [.stop]

/-- A read transfer of n bytes with every addressing byte acknowledged, delivering v (30_encoding R107). -/
def readTrace (devAddr : BitVec 7) (wa : Half) (n : Nat) (v : List Byte) : List Event :=
  [.start .ok, .wrbyte (addrByte devAddr false) .ack] ++ (be16 wa).map (fun b => .wrbyte b .ack)
    ++ [.rstart .ok, .wrbyte (addrByte devAddr true) .ack, .rdbytes n v, .stop]

/-- A resync granted at its first Start (30_encoding R108). -/
def resyncTrace : List Event := [.start .ok, .dummy 0xFF#8, .stop]

/-- A transfer whose address byte is not acknowledged (42_bus R162, R170). -/
def nackTrace (devAddr : BitVec 7) : List Event :=
  [.start .ok, .wrbyte (addrByte devAddr false) .nack, .stop]

/-! ## Which traces a primitive can leave, and what it then answers (42_bus R161 to R165, R169)

One relation per primitive, one constructor per way its pseudocode can end: the bus events in order, and the answer. -/

/-- `SendByte(b)` (42_bus R162). -/
inductive SendRuns (b : Byte) : List Event → Bool → Prop where
  | ack : SendRuns b [.wrbyte b .ack] true
  | nack : SendRuns b [.wrbyte b .nack, .stop] false
  | lost : SendRuns b [.wrbyte b .lost] false

/-- `SendByte` of each byte in turn, up to the first COMMFAIL (42_bus R163, R164). -/
inductive BytesRun : List Byte → List Event → Bool → Prop where
  | done : BytesRun [] [] true
  | fail {b : Byte} {rest : List Byte} {x : List Event} : SendRuns b x false → BytesRun (b :: rest) x false
  | sent {b : Byte} {rest : List Byte} {x y : List Event} {ok : Bool} :
      SendRuns b x true → BytesRun rest y ok → BytesRun (b :: rest) (x ++ y) ok

/-- `BusWrite(devAddr, wa, payload)` (42_bus R163). -/
inductive WriteRuns (devAddr : BitVec 7) (wa : Half) (payload : List Byte) : List Event → Bool → Prop where
  | held : WriteRuns devAddr wa payload [.start .held] false
  | fail {x : List Event} : BytesRun (addrByte devAddr false :: be16 wa ++ payload) x false →
      WriteRuns devAddr wa payload (.start .ok :: x) false
  | done {x : List Event} : BytesRun (addrByte devAddr false :: be16 wa ++ payload) x true →
      WriteRuns devAddr wa payload (.start .ok :: x ++ [.stop]) true

/-- `BusRead(devAddr, wa, n)` (42_bus R164, R167). -/
inductive ReadRuns (devAddr : BitVec 7) (wa : Half) (n : Nat) : List Event → Option (List Byte) → Prop where
  | held : ReadRuns devAddr wa n [.start .held] none
  | fail {x : List Event} : BytesRun (addrByte devAddr false :: be16 wa) x false →
      ReadRuns devAddr wa n (.start .ok :: x) none
  | rstartLost {x : List Event} : BytesRun (addrByte devAddr false :: be16 wa) x true →
      ReadRuns devAddr wa n (.start .ok :: x ++ [.rstart .lost]) none
  | readAddrFail {x y : List Event} : BytesRun (addrByte devAddr false :: be16 wa) x true →
      SendRuns (addrByte devAddr true) y false → ReadRuns devAddr wa n (.start .ok :: x ++ .rstart .ok :: y) none
  | wrongLength {x y : List Event} {v : List Byte} : BytesRun (addrByte devAddr false :: be16 wa) x true →
      SendRuns (addrByte devAddr true) y true → v.length ≠ n →
      ReadRuns devAddr wa n (.start .ok :: x ++ .rstart .ok :: y ++ [.rdbytes n v, .stop]) none
  | done {x y : List Event} {v : List Byte} : BytesRun (addrByte devAddr false :: be16 wa) x true →
      SendRuns (addrByte devAddr true) y true → v.length = n →
      ReadRuns devAddr wa n (.start .ok :: x ++ .rstart .ok :: y ++ [.rdbytes n v, .stop]) (some v)

/-- `Resync()`; true is OK, false is HELD (42_bus R165). -/
inductive ResyncRuns : List Event → Bool → Prop where
  | ok : ResyncRuns [.start .ok, .dummy 0xFF#8, .stop] true
  | retried : ResyncRuns [.start .held, .start .ok, .dummy 0xFF#8, .stop] true
  | held : ResyncRuns [.start .held, .start .held] false

/-- `WriteWithRetry(f)` from attempt n on, with k = RETRIES: its events, its answer and the last attempt made (43_transaction R199
to R201). -/
inductive RetryRuns (devAddr : BitVec 7) (wa : Half) (f : List Byte) (k : Nat) : Nat → List Event → ResultCode → Nat → Prop where
  | ok {n : Nat} {x : List Event} : WriteRuns devAddr wa f x true → RetryRuns devAddr wa f k n x .ok n
  | held {n : Nat} {x y : List Event} : WriteRuns devAddr wa f x false → ResyncRuns y false →
      RetryRuns devAddr wa f k n (x ++ y) .resyncFail n
  | exhausted {n : Nat} {x y : List Event} : WriteRuns devAddr wa f x false → ResyncRuns y true → n = 1 + k →
      RetryRuns devAddr wa f k n (x ++ y) .commFail n
  | again {n m : Nat} {x y z : List Event} {w : ResultCode} : WriteRuns devAddr wa f x false → ResyncRuns y true → n < 1 + k →
      RetryRuns devAddr wa f k (n + 1) z w m → RetryRuns devAddr wa f k n (x ++ y ++ z) w m

/-- TSTATE after a resync. -/
def resyncTState (ok : Bool) : TState := if ok then .idle else .failed

/-- What EXECUTE leaves when its checks pass and it completes: a row of the table of 43_transaction R209. -/
structure ExecuteEnd where
  /-- RESULT -/
  code : ResultCode
  /-- TSTATE -/
  tstate : TState
  /-- ATTEMPTS -/
  attempts : Nat
  /-- RX_LEN, if it changes -/
  rxLen : Option Nat
  /-- what RXBUF[0 ..) is set to -/
  stored : List Byte
  /-- RSP -/
  rsp : Rsp

/-- EXECUTE from its command write on, started in s with the frame f in TXBUF: its events from there, and what it leaves
(43_transaction R199 to R209). -/
inductive ExecuteRuns (s : State) (f : List Byte) : List Event → ExecuteEnd → Prop where
  | writeFails {x : List Event} {w : ResultCode} {a : Nat} : RetryRuns s.devAddr s.ioaddr f s.snapRetries 1 x w a → w ≠ .ok →
      ExecuteRuns s f x ⟨w, resyncTState (w == .commFail), a, none, [], noFrame⟩
  | countFails {x y z : List Event} {a : Nat} {ok : Bool} : RetryRuns s.devAddr s.ioaddr f s.snapRetries 1 x .ok a →
      ReadRuns s.devAddr s.ioaddr 1 y none → ResyncRuns z ok →
      ExecuteRuns s f (x ++ .wait (Config.procDelay s.opcode s.mode) :: y ++ z)
        ⟨if ok then .commFail else .resyncFail, resyncTState ok, a, some 0, [], noFrame⟩
  | countShort {x y : List Event} {a : Nat} {c : Byte} : RetryRuns s.devAddr s.ioaddr f s.snapRetries 1 x .ok a →
      ReadRuns s.devAddr s.ioaddr 1 y (some [c]) → c.toNat < 4 →
      ExecuteRuns s f (x ++ .wait (Config.procDelay s.opcode s.mode) :: y) ⟨.frameShort, .idle, a, some 1, [c], noFrame⟩
  | countLong {x y : List Event} {a : Nat} {c : Byte} : RetryRuns s.devAddr s.ioaddr f s.snapRetries 1 x .ok a →
      ReadRuns s.devAddr s.ioaddr 1 y (some [c]) → 4 ≤ c.toNat → s.respLen.toNat < c.toNat →
      ExecuteRuns s f (x ++ .wait (Config.procDelay s.opcode s.mode) :: y) ⟨.frameCountError, .idle, a, some 1, [c], noFrame⟩
  | bodyFails {x y z u : List Event} {a : Nat} {c : Byte} {ok : Bool} :
      RetryRuns s.devAddr s.ioaddr f s.snapRetries 1 x .ok a → ReadRuns s.devAddr s.ioaddr 1 y (some [c]) →
      4 ≤ c.toNat → c.toNat ≤ s.respLen.toNat → ReadRuns s.devAddr s.ioaddr (bodyLength s.params c) z none → ResyncRuns u ok →
      ExecuteRuns s f (x ++ .wait (Config.procDelay s.opcode s.mode) :: y ++ z ++ u)
        ⟨if ok then .commFail else .resyncFail, resyncTState ok, a, some 0, [c], noFrame⟩
  | restartDiffers {x y z : List Event} {a : Nat} {c : Byte} {v : List Byte} :
      RetryRuns s.devAddr s.ioaddr f s.snapRetries 1 x .ok a → ReadRuns s.devAddr s.ioaddr 1 y (some [c]) →
      4 ≤ c.toNat → c.toNat ≤ s.respLen.toNat → s.params.respReadMode = .restart →
      ReadRuns s.devAddr s.ioaddr c.toNat z (some v) → v.head? ≠ some c →
      ExecuteRuns s f (x ++ .wait (Config.procDelay s.opcode s.mode) :: y ++ z)
        ⟨.frameCountError, .idle, a, some c.toNat, v, noFrame⟩
  | frame {x y z : List Event} {a : Nat} {c : Byte} {v r : List Byte} :
      RetryRuns s.devAddr s.ioaddr f s.snapRetries 1 x .ok a → ReadRuns s.devAddr s.ioaddr 1 y (some [c]) →
      4 ≤ c.toNat → c.toNat ≤ s.respLen.toNat → ReadRuns s.devAddr s.ioaddr (bodyLength s.params c) z (some v) →
      (s.params.respReadMode = .continue ∧ r = c :: v ∨ s.params.respReadMode = .restart ∧ r = v ∧ v.head? = some c) →
      ExecuteRuns s f (x ++ .wait (Config.procDelay s.opcode s.mode) :: y ++ z)
        ⟨(unmarshalFrame r c.toNat).result s.params, .idle, a, some c.toNat, r,
          (unmarshalFrame r c.toNat).rsp s.params c.toNat⟩

/-! ## Memory effects -/

/-- From s to t the bytes v are stored at B[a .. a + len(v)), and every other byte reads as before. -/
def StoresAt (s t : State) (b : Buf) (a : Nat) (v : List Byte) : Prop :=
  (∀ j, j < v.length → t.bufByte b (a + j) = v.getD j 0#8) ∧
  ∀ off, (∀ j, j < v.length → off ≠ b.offset (a + j)) → t.byteAt off = s.byteAt off

/-- Every byte outside the given buffers reads as before. -/
def OnlyTouches (bufs : List Buf) (s t : State) : Prop :=
  ∀ off, (∀ b ∈ bufs, ∀ i, i < b.size s.params → off ≠ b.offset i) → t.byteAt off = s.byteAt off

/-- The command's inputs: the parameter registers but RX_LEN, the command word, DBUF and the parameters (20_memory R90), and, while
the command still runs, the snapshot of its word and of RETRIES (10_state R63). -/
def SameInputs (s t : State) : Prop :=
  t.params = s.params ∧ t.cmd = s.cmd ∧ t.devAddr = s.devAddr ∧ t.waddr = s.waddr ∧ t.ioaddr = s.ioaddr ∧
  t.opcode = s.opcode ∧ t.mode = s.mode ∧ t.param1 = s.param1 ∧ t.param2 = s.param2 ∧ t.dlen = s.dlen ∧
  t.wrLen = s.wrLen ∧ t.rdLen = s.rdLen ∧ t.crcLen = s.crcLen ∧ t.respLen = s.respLen ∧
  (∀ i, i < s.params.dbufSize → t.bufByte .dbuf i = s.bufByte .dbuf i) ∧
  ∀ q, t.seq = some q → ∃ q', s.seq = some q' ∧ q.word = q'.word ∧ q.retries = q'.retries

/-- What a command never writes, by its rule's "Registers written" (40_crc R130, 41_framer R136, R146, 42_bus R170 to R172,
43_transaction R195, 44_wake_sleep R225, R228), beside its inputs. -/
def Untouched (s t : State) : Instr → Prop
  | .crcDbuf | .crcTxbuf | .crcRxbuf =>
    OnlyTouches [] s t ∧ t.frameLen = s.frameLen ∧ t.rxLen = s.rxLen ∧ t.rsp = s.rsp ∧ t.tstate = s.tstate ∧
      t.attempts = s.attempts ∧ t.trace = s.trace
  | .marshal =>
    OnlyTouches [.txbuf] s t ∧ t.rxLen = s.rxLen ∧ t.crc = s.crc ∧ t.rsp = s.rsp ∧ t.tstate = s.tstate ∧
      t.attempts = s.attempts ∧ t.trace = s.trace
  | .unmarshal =>
    OnlyTouches [] s t ∧ t.frameLen = s.frameLen ∧ t.rxLen = s.rxLen ∧ t.crc = s.crc ∧ t.tstate = s.tstate ∧
      t.attempts = s.attempts ∧ t.trace = s.trace
  | .busWrite | .resync =>
    OnlyTouches [] s t ∧ t.frameLen = s.frameLen ∧ t.rxLen = s.rxLen ∧ t.crc = s.crc ∧ t.rsp = s.rsp ∧
      t.attempts = s.attempts
  | .busRead =>
    OnlyTouches [.rxbuf] s t ∧ t.frameLen = s.frameLen ∧ t.crc = s.crc ∧ t.rsp = s.rsp ∧ t.attempts = s.attempts
  | .execute _ => OnlyTouches [.txbuf, .rxbuf] s t ∧ t.crc = s.crc
  | .wake =>
    OnlyTouches [] s t ∧ t.frameLen = s.frameLen ∧ t.rxLen = s.rxLen ∧ t.crc = s.crc ∧ t.rsp = s.rsp ∧
      t.tstate = s.tstate ∧ t.attempts = s.attempts
  | .sleep _ => OnlyTouches [.txbuf] s t ∧ t.rxLen = s.rxLen ∧ t.crc = s.crc ∧ t.rsp = s.rsp

/-- What the host's accesses to a busy controller can change, and the moves left, set to fixed values: CTRL, OVR, the host's
own record, the count of `any` reads (20_memory R72, R75). -/
def State.hostBlind (s : State) : State :=
  { s with turns := [], hostLog := [], draws := 0, ie := false, retries := 0#3, ovr := false }

end Sys2Proof.Machine
end

