-- ==== Sys2Proof/Certificates/Slice0/Obligations.lean ====
section
/-! DEFINITION. The statements for the provers. Where a statement speaks of a command's run, `s.atStart` says that its word has
just been accepted (60_exceptions R241), and a condition on `s.turns` says which moves are still to come; `t.turns`, the moves
left, is the model's own field and is left unsaid. The free buffer bytes (log 7) are read through `byteAt`, so a statement holds
for every value of them. -/

open Sys2Proof Sys2Proof.Machine

/-! ## Step, acceptance, decode -/

/-- The controller's turn runs the snapshotted word's command: `step` is `exec` of the decoded command (60_exceptions R241). -/
def Obligations.StepRunsTheAcceptedCommand : Prop :=
  ∀ (s : State) (reply : Option BusReply) (rest : List Turn) (q : Seq) (i : Instr),
    s.turns = .ctrl reply :: rest → s.seq = some q → decode q.word = .ok i → step s = exec i s

/-- A placed command word is accepted, and the very next step runs it (60_exceptions R241; the placing is log 13's). -/
def Obligations.PlacedWordRunsNext : Prop :=
  ∀ (s : State) (w : Nat) (i : Instr), decodeTableWord 32 w = some i →
    (s.withFetchWord 32 w).atStart = true ∧ step (s.withFetchWord 32 w) = exec i (s.withFetchWord 32 w)

/-- A word that decodes to no command completes with BAD_COMMAND, with no other effect than that acceptance and completion
(30_encoding R111). -/
def Obligations.IllegalWordOnlyCompletesWithBadCommand : Prop :=
  ∀ (s : State) (reply : Option BusReply) (rest : List Turn) (q : Seq) (e : IllegalWord),
    s.turns = .ctrl reply :: rest → s.seq = some q → q.pos = .accepted → decode q.word = .error e →
    step s = .next { s with turns := rest, result := .badCommand, phase := .idle, busy := false, done := true, seq := none }

/-- A host write to CMD while BUSY = 0 accepts any word (60_exceptions R241, 10_state R39, R63). -/
def Obligations.CmdWriteIsAcceptedWhenIdle : Prop :=
  ∀ (s : State) (w : Word) (rest : List Turn), s.turns = .host (.write 0x008 4 w) :: rest → s.busy = false →
    step s = .next { s with
      turns := rest, hostLog := s.hostLog ++ [.done], cmd := w, busy := true, done := false, attempts := 0#4,
      phase := .check, seq := some { word := w, retries := s.retries, pos := .accepted } }

/-- A few command words decode to their commands (30_encoding R110, R114). -/
def Obligations.SampleWordsDecode : Prop :=
  decodeTableWord 32 0x00000021 = some .crcRxbuf ∧ decodeTableWord 32 0x00000002 = some .marshal ∧
  decodeTableWord 32 0x00000005 = some .busRead ∧ decodeTableWord 32 0x00000107 = some (.execute true) ∧
  decodeTableWord 32 0x00000209 = some (.sleep true) ∧ decodeTableWord 32 0x00000008 = some .wake ∧
  decodeTableWord 32 0x00000108 = none ∧ decodeTableWord 32 0x00000031 = none

/-- Decode and encode agree both ways: every command's word decodes to it, and a word that decodes is its command's word. -/
def Obligations.DecodeAndEncodeAgree : Prop :=
  (∀ i : Instr, decode (encode i) = .ok i) ∧ ∀ (w : Word) (i : Instr), decode w = .ok i → encode i = w

/-- A word decodes when it matches exactly one row of the table, no word matches two, and the command is that row's
(30_encoding R110). -/
def Obligations.LegalWordsMatchExactlyOneRow : Prop :=
  ∀ w : Word,
    ((rows w).filter fun r => r.1.accepts w).length ≤ 1 ∧
    ∀ i : Instr, decode w = .ok i ↔ ((rows w).filter fun r => r.1.accepts w).map Prod.snd = [i]

/-- The illegal words are exactly those of 30_encoding R111's list. -/
def Obligations.IllegalWordsAreExactlyTheListed : Prop :=
  ∀ w : Word, (∃ e, decode w = .error e) ↔
    (opField w = 0#4 ∨ 9#4 < opField w) ∨ (opField w = 1#4 ∧ srcField w = 3#2) ∨
    (opField w ≠ 1#4 ∧ srcField w ≠ 0#2) ∨ (wakeFirstField w = true ∧ opField w ≠ 7#4) ∨
    (idleField w = true ∧ opField w ≠ 9#4) ∨ w.extractLsb' 6 2 ≠ 0#2 ∨ w.extractLsb' 10 22 ≠ 0#22

/-! ## CRC -/

/-- The residue, linearity and leading-zero laws (40_crc R131). -/
def Obligations.CrcResidueLinearityAndLeadingZero : Prop :=
  (∀ s : List Byte, crc16 (s ++ crc16 s) = [0#8, 0#8]) ∧
  (∀ s u : List Byte, s.length = u.length →
    crc16 (List.zipWith (· ^^^ ·) s u) = List.zipWith (· ^^^ ·) (crc16 s) (crc16 u)) ∧
  ∀ s : List Byte, crc16 (0#8 :: s) = crc16 s

/-- The empty stream's CRC is the initial register value (40_crc R128). -/
def Obligations.CrcOfTheEmptyStream : Prop := crc16 [] = [0x00#8, 0x00#8]

/-- CRC.DBUF, CRC.TXBUF and CRC.RXBUF put the CRC of the buffer prefix of CRC_LEN bytes into CRC and complete with OK, in any
TSTATE; CRC_LEN above the buffer's size completes with BAD_LENGTH and CRC keeps its value. Nothing else changes. -/
def Obligations.CrcCommandsComputeThePrefixCrc : Prop :=
  ∀ (s : State) (i : Instr) (src : Buf), (i, src) ∈ [(Instr.crcDbuf, Buf.dbuf), (.crcTxbuf, .txbuf), (.crcRxbuf, .rxbuf)] →
    s.atStart = true → s.turns.all Turn.isCtrl = true → 8 ≤ s.turns.length →
    ∃ t, exec i s = .next t ∧
      (s.crcLen.toNat ≤ src.size s.params →
        t = { s with
          turns := t.turns, crc := crcRegister (s.bufSlice src 0 s.crcLen.toNat), result := .ok, phase := .idle,
          busy := false, done := true, seq := none }) ∧
      (src.size s.params < s.crcLen.toNat →
        t = { s with
          turns := t.turns, result := .badLength, phase := .idle, busy := false, done := true, seq := none })

/-! ## Framer -/

/-- Every frame `Marshal` returns has its own length as Count, the CRC of what precedes it as its last two bytes, and 9 to
MAX_CMD_SIZE bytes (41_framer R139). -/
def Obligations.MarshalledFramesAreSelfConsistent : Prop :=
  ∀ (p : Params) (op mode : Byte) (p1 p2 : Half) (l1 l2 l3 l4 : Byte) (d f : List Byte),
    p.legal = true → p.dbufSize ≤ d.length → marshalFrame p op mode p1 p2 l1 l2 l3 l4 d = some f →
    (f.getD 0 0#8).toNat = f.length ∧ crc16 (f.take (f.length - 2)) = f.drop (f.length - 2) ∧
      9 ≤ f.length ∧ f.length ≤ p.maxCmdSize

/-- A payload of DBUF_SIZE bytes marshals and one byte over fails: the exact sum decides (41_framer R137). -/
def Obligations.MarshalFailsExactlyAboveTheMaximumPayload : Prop :=
  ∀ (p : Params) (op mode : Byte) (p1 p2 : Half) (l1 l2 l3 l4 : Byte) (d : List Byte),
    marshalFrame p op mode p1 p2 l1 l2 l3 l4 d = none ↔
      p.maxCmdSize - 9 < l1.toNat + l2.toNat + l3.toNat + l4.toNat

/-- The same bytes with a different split into segments give the same frame: only the sum of the lengths and the bytes below it
enter the frame (41_framer R138). -/
def Obligations.SegmentSplitDoesNotChangeTheFrame : Prop :=
  ∀ (p : Params) (op mode : Byte) (p1 p2 : Half) (l1 l2 l3 l4 m1 m2 m3 m4 : Byte) (d e : List Byte),
    l1.toNat + l2.toNat + l3.toNat + l4.toNat = m1.toNat + m2.toNat + m3.toNat + m4.toNat →
    d.take (l1.toNat + l2.toNat + l3.toNat + l4.toNat) = e.take (l1.toNat + l2.toNat + l3.toNat + l4.toNat) →
    marshalFrame p op mode p1 p2 l1 l2 l3 l4 d = marshalFrame p op mode p1 p2 m1 m2 m3 m4 e

/-- With the default parameters the sleep and idle frames are the two of 30_encoding R116 (the defaults are log 5's). -/
def Obligations.SleepAndIdleFramesAreTheKnownVectors : Prop :=
  sleepFrame defaultParams false =
    [0x09#8, 0x11#8, 0x00#8, 0x00#8, 0x00#8, 0x00#8, 0x00#8, 0x71#8, 0x81#8] ∧
  sleepFrame defaultParams true =
    [0x09#8, 0x11#8, 0x40#8, 0x00#8, 0x00#8, 0x00#8, 0x00#8, 0xEF#8, 0x82#8]

/-- MARSHAL stores the frame of the parameter registers and DBUF in TXBUF and its length in FRAME_LEN; a payload that is too
long completes with FRAME_TOO_LARGE and changes neither. Nothing else changes. -/
def Obligations.MarshalStoresTheFrame : Prop :=
  ∀ s : State, s.atStart = true → s.params.legal = true → s.turns.all Turn.isCtrl = true → 8 ≤ s.turns.length →
    ∃ t, exec .marshal s = .next t ∧
      (∀ f, s.commandFrame = some f →
        StoresAt s t .txbuf 0 f ∧
        t = { s with
          turns := t.turns, mem := t.mem, frameLen := BitVec.ofNat 8 f.length, result := .ok, phase := .idle,
          busy := false, done := true, seq := none }) ∧
      (s.commandFrame = none →
        t = { s with
          turns := t.turns, result := .frameTooLarge, phase := .idle, busy := false, done := true, seq := none })

/-- `Unmarshal` reports the first failing check of length, CRC and Count, and a valid frame's status byte (41_framer R145,
R147). -/
def Obligations.UnmarshalReportsTheFirstFailingCheck : Prop :=
  ∀ (r : List Byte) (n : Nat),
    (unmarshalFrame r n = .frameShort ↔ n < 4) ∧
    (unmarshalFrame r n = .crcError ↔
      4 ≤ n ∧ crc16 (r.take (n - 2)) ≠ [r.getD (n - 2) 0#8, r.getD (n - 1) 0#8]) ∧
    (unmarshalFrame r n = .frameCountError ↔
      4 ≤ n ∧ crc16 (r.take (n - 2)) = [r.getD (n - 2) 0#8, r.getD (n - 1) 0#8] ∧ (r.getD 0 0#8).toNat ≠ n) ∧
    ∀ status, unmarshalFrame r n = .valid status ↔
      4 ≤ n ∧ crc16 (r.take (n - 2)) = [r.getD (n - 2) 0#8, r.getD (n - 1) 0#8] ∧ (r.getD 0 0#8).toNat = n ∧
        r.getD 1 0#8 = status

/-- UNMARSHAL sets RSP and RESULT by the verdict on RXBUF[0 .. RX_LEN): the decoded response, or "no frame" and the frame
error; RX_LEN above RX_BUF_SIZE completes with BAD_LENGTH and "no frame". Nothing else changes. -/
def Obligations.UnmarshalDecodesTheReceivedFrame : Prop :=
  ∀ s : State, s.atStart = true → s.turns.all Turn.isCtrl = true → 8 ≤ s.turns.length →
    ∃ t, exec .unmarshal s = .next t ∧
      (s.rxLen.toNat ≤ s.params.rxBufSize →
        t = { s with
          turns := t.turns,
          rsp := (unmarshalFrame (s.bufSlice .rxbuf 0 s.rxLen.toNat) s.rxLen.toNat).rsp s.params s.rxLen.toNat,
          result := (unmarshalFrame (s.bufSlice .rxbuf 0 s.rxLen.toNat) s.rxLen.toNat).result s.params,
          phase := .idle, busy := false, done := true, seq := none }) ∧
      (s.params.rxBufSize < s.rxLen.toNat →
        t = { s with
          turns := t.turns, rsp := noFrame, result := .badLength, phase := .idle, busy := false, done := true,
          seq := none })

/-- Round trip: a marshalled frame, followed by anything, is a valid frame whose status byte is the opcode, and its payload is
MODE, PARAM1, PARAM2 and the data (41_framer R149). -/
def Obligations.UnmarshalOfMarshalRecoversThePayload : Prop :=
  ∀ (p : Params) (op mode : Byte) (p1 p2 : Half) (l1 l2 l3 l4 : Byte) (d f rest : List Byte),
    p.legal = true → p.dbufSize ≤ d.length → marshalFrame p op mode p1 p2 l1 l2 l3 l4 d = some f →
    unmarshalFrame (f ++ rest) f.length = .valid op ∧
    ((f ++ rest).take (f.length - 2)).drop 2 =
      [mode] ++ be16 p1 ++ be16 p2 ++ d.take (l1.toNat + l2.toNat + l3.toNat + l4.toNat)

/-- The status mapping is total with one byte for each named code, UNKNOWN is never success, and only 0x00 gives OK (00_scope R11,
41_framer R148, R151, 60_exceptions R245; the code's own byte is in RegisterWordsPlaceEveryField). -/
def Obligations.StatusMappingIsTotalAndUnknownIsNeverOk : Prop :=
  ∀ p : Params, p.legal = true →
    (∀ b, deviceCode p b ∈ DeviceCode.named ∨ deviceCode p b = .unknown) ∧
    (∀ c ∈ DeviceCode.named, ∃! b, deviceCode p b = c) ∧
    (∀ b, deviceResult (deviceCode p b) = .ok ↔ b = 0x00#8) ∧
    (∀ b, deviceResult (deviceCode p b) = .unknownDeviceError ↔ deviceCode p b = .unknown) ∧
    deviceCode p 0xC7#8 = .unknown

/-! ## Bus commands -/

/-- BUS_WRITE with every Start granted and every byte acknowledged sends the address byte, WADDR and TXBUF[0 .. WR_LEN), then
STOP, and completes with OK and TSTATE = IDLE. Nothing else changes. -/
def Obligations.BusWriteSendsThePayload : Prop :=
  ∀ s : State, s.atStart = true → s.tstate = .idle → s.wrLen.toNat ≤ s.params.maxCmdSize →
    s.turns.all (Turn.replies BusReply.grants) = true → 3 * s.wrLen.toNat + 25 ≤ s.turns.length →
    ∃ t, exec .busWrite s = .next t ∧
      t = { s with
        turns := t.turns, pending := none,
        trace := s.trace ++ writeTrace s.devAddr s.waddr (s.bufSlice .txbuf 0 s.wrLen.toNat),
        result := .ok, phase := .idle, busy := false, done := true, seq := none }

/-- BUS_WRITE ends with COMM_FAIL and TSTATE = FAILED when the address byte is not acknowledged (a STOP follows), when
arbitration is lost on it (nothing follows), and when the Start is held (nothing else is sent). And whatever the environment
answers, a BUS_WRITE that completes leaves one of the traces of `BusWrite`, and ends as that trace's answer says: a NACK or LOST
after the address byte is COMM_FAIL too (42_bus R162, R163, R169). -/
def Obligations.BusWriteFailsOnNackLostAndHeld : Prop :=
  (∀ s : State, s.atStart = true → s.tstate = .idle → s.wrLen.toNat ≤ s.params.maxCmdSize → 10 ≤ s.turns.length →
    ∀ (ok : BusReply → Bool) (sent : List Event),
      (ok, sent) ∈ [(BusReply.nacks, nackTrace s.devAddr),
        (BusReply.steals, [.start .ok, .wrbyte (addrByte s.devAddr false) .lost]),
        (BusReply.holds, [.start .held])] →
      s.turns.all (Turn.replies ok) = true →
      ∃ t, exec .busWrite s = .next t ∧
        t = { s with
          turns := t.turns, pending := none, trace := s.trace ++ sent, tstate := .failed,
          result := .commFail, phase := .idle, busy := false, done := true, seq := none }) ∧
  ∀ s t : State, s.atStart = true → s.tstate = .idle → s.wrLen.toNat ≤ s.params.maxCmdSize →
    s.turns.all Turn.isCtrl = true → exec .busWrite s = .next t → t.seq = none →
    ∃ tr ok, WriteRuns s.devAddr s.waddr (s.bufSlice .txbuf 0 s.wrLen.toNat) tr ok ∧
      t = { s with
        turns := t.turns, pending := none, trace := s.trace ++ tr, tstate := if ok then .idle else .failed,
        result := if ok then .ok else .commFail, phase := .idle, busy := false, done := true, seq := none }

/-- BUS_READ with every Start granted, every byte acknowledged and exactly RD_LEN bytes delivered stores them in RXBUF, sets
RX_LEN, and completes with OK. Nothing else changes. -/
def Obligations.BusReadStoresTheDeliveredBytes : Prop :=
  ∀ (s : State) (v : List Byte), s.atStart = true → s.tstate = .idle → v.length = s.rdLen.toNat →
    1 ≤ s.rdLen.toNat → s.rdLen.toNat ≤ s.params.rxBufSize →
    s.turns.all (Turn.replies (BusReply.delivers v)) = true → 35 ≤ s.turns.length →
    ∃ t, exec .busRead s = .next t ∧ StoresAt s t .rxbuf 0 v ∧
      t = { s with
        turns := t.turns, mem := t.mem, pending := none, rxLen := s.rdLen,
        trace := s.trace ++ readTrace s.devAddr s.waddr s.rdLen.toNat v,
        result := .ok, phase := .idle, busy := false, done := true, seq := none }

/-- A read that delivers any number of bytes but RD_LEN is COMM_FAIL: STOP is sent, TSTATE is FAILED, RX_LEN is 0 and none of
the bytes is stored (42_bus R167). And whatever the environment answers, a BUS_READ that completes leaves one of the traces of
`BusRead`, and ends as that trace's answer says: a held Start, a NACK or LOST of any byte and a lost repeated Start are COMM_FAIL
too (42_bus R162, R164, R169). -/
def Obligations.BusReadRejectsEveryOtherByteCount : Prop :=
  (∀ (s : State) (v : List Byte), s.atStart = true → s.tstate = .idle → v.length ≠ s.rdLen.toNat →
    1 ≤ s.rdLen.toNat → s.rdLen.toNat ≤ s.params.rxBufSize →
    s.turns.all (Turn.replies (BusReply.delivers v)) = true → 35 ≤ s.turns.length →
    ∃ t, exec .busRead s = .next t ∧
      t = { s with
        turns := t.turns, pending := none, rxLen := 0#8, tstate := .failed,
        trace := s.trace ++ readTrace s.devAddr s.waddr s.rdLen.toNat v,
        result := .commFail, phase := .idle, busy := false, done := true, seq := none }) ∧
  ∀ s t : State, s.atStart = true → s.tstate = .idle → 1 ≤ s.rdLen.toNat → s.rdLen.toNat ≤ s.params.rxBufSize →
    s.turns.all Turn.isCtrl = true → exec .busRead s = .next t → t.seq = none →
    ∃ tr r, ReadRuns s.devAddr s.waddr s.rdLen.toNat tr r ∧
      ((∃ v, r = some v ∧ StoresAt s t .rxbuf 0 v ∧
        t = { s with
          turns := t.turns, mem := t.mem, pending := none, trace := s.trace ++ tr, rxLen := s.rdLen,
          result := .ok, phase := .idle, busy := false, done := true, seq := none }) ∨
      (r = none ∧
        t = { s with
          turns := t.turns, pending := none, trace := s.trace ++ tr, rxLen := 0#8, tstate := .failed,
          result := .commFail, phase := .idle, busy := false, done := true, seq := none }))

/-- A length register out of range completes BUS_WRITE and BUS_READ with BAD_LENGTH, and nothing is sent. -/
def Obligations.BusCommandsRefuseBadLengths : Prop :=
  ∀ s : State, s.atStart = true → s.tstate = .idle → s.turns.all Turn.isCtrl = true → 4 ≤ s.turns.length →
    (s.params.maxCmdSize < s.wrLen.toNat →
      ∃ t, exec .busWrite s = .next t ∧
        t = { s with
          turns := t.turns, result := .badLength, phase := .idle, busy := false, done := true, seq := none }) ∧
    (s.rdLen.toNat = 0 ∨ s.params.rxBufSize < s.rdLen.toNat →
      ∃ t, exec .busRead s = .next t ∧
        t = { s with
          turns := t.turns, result := .badLength, phase := .idle, busy := false, done := true, seq := none })

/-- RESYNC in any TSTATE: a granted Start gives Start, the dummy byte, STOP, TSTATE = IDLE and OK; two held Starts give
RESYNC_FAIL and TSTATE = FAILED with nothing else sent. And whatever the environment answers, a RESYNC that completes leaves one of
the three traces of `Resync` and ends as it says: one held Start and then a granted one is OK (42_bus R165, R172). -/
def Obligations.ResyncFreesTheBusOrFails : Prop :=
  (∀ s : State, s.atStart = true → 8 ≤ s.turns.length →
    (s.turns.all (Turn.replies BusReply.grants) = true →
      ∃ t, exec .resync s = .next t ∧
        t = { s with
          turns := t.turns, pending := none, trace := s.trace ++ resyncTrace, tstate := .idle,
          result := .ok, phase := .idle, busy := false, done := true, seq := none }) ∧
    (s.turns.all (Turn.replies BusReply.holds) = true →
      ∃ t, exec .resync s = .next t ∧
        t = { s with
          turns := t.turns, pending := none, trace := s.trace ++ [.start .held, .start .held], tstate := .failed,
          result := .resyncFail, phase := .idle, busy := false, done := true, seq := none })) ∧
  ∀ s t : State, s.atStart = true → s.turns.all Turn.isCtrl = true → exec .resync s = .next t → t.seq = none →
    ∃ tr ok, ResyncRuns tr ok ∧
      t = { s with
        turns := t.turns, pending := none, trace := s.trace ++ tr, tstate := resyncTState ok,
        result := if ok then .ok else .resyncFail, phase := .idle, busy := false, done := true, seq := none }

/-! ## Wake and sleep -/

/-- WAKE sends one wake pulse and completes with OK, in any TSTATE. Nothing else changes. -/
def Obligations.WakeSendsOnePulse : Prop :=
  ∀ s : State, s.atStart = true → s.turns.all Turn.answered = true → 3 ≤ s.turns.length →
    ∃ t, exec .wake s = .next t ∧
      t = { s with
        turns := t.turns, pending := none, trace := s.trace ++ [.wakePulse Config.tWakeLow Config.tWakeHigh],
        result := .ok, phase := .idle, busy := false, done := true, seq := none }

/-- SLEEP and SLEEP idle write their one-way frame to IOADDR in one attempt when every byte is acknowledged, leave it in TXBUF
with FRAME_LEN = 9, and complete with OK: no wait, no read, no RSP. Nothing else changes. -/
def Obligations.SleepSendsTheOneWayFrame : Prop :=
  ∀ (s : State) (idle : Bool), s.atStart = true → s.params.legal = true → s.tstate = .idle →
    s.turns.all (Turn.replies BusReply.grants) = true → 60 ≤ s.turns.length →
    ∃ t, exec (.sleep idle) s = .next t ∧ StoresAt s t .txbuf 0 (sleepFrame s.params idle) ∧
      t = { s with
        turns := t.turns, mem := t.mem, pending := none, frameLen := 9#8, attempts := 1#4,
        trace := s.trace ++ writeTrace s.devAddr s.ioaddr (sleepFrame s.params idle),
        result := .ok, phase := .idle, busy := false, done := true, seq := none }

/-! ## EXECUTE and the retry -/

/-- EXECUTE, with or without the wake pulse, when the bus grants everything: the frame is built into TXBUF, one write, one WAIT
and two repeated-start reads are made, the received frame (Count c, then the rest as RESP_READ_MODE says) is in RXBUF with
RX_LEN = c, and RSP and RESULT are those of its verdict. `first` are the moves that answer the count read, `later` those that
answer the body read. Nothing else changes. -/
def Obligations.ExecuteRunsOneExchange : Prop :=
  ∀ (s : State) (wakeFirst : Bool) (c : Byte) (f r : List Byte) (first later : List Turn),
    s.atStart = true → s.params.legal = true → s.tstate = .idle →
    4 ≤ c.toNat → c.toNat ≤ s.respLen.toNat → s.respLen.toNat ≤ s.params.rxBufSize →
    s.commandFrame = some f → r.length = c.toNat → r.head? = some c →
    s.turns = first ++ later →
    first.all (Turn.replies (BusReply.delivers [c])) = true →
    later.all (Turn.replies (BusReply.delivers (r.drop (c.toNat - bodyLength s.params c)))) = true →
    3 * f.length + 52 ≤ first.length → first.length ≤ 3 * f.length + 79 → 50 ≤ later.length →
    ∃ t u, exec (.execute wakeFirst) s = .next t ∧ StoresAt s u .txbuf 0 f ∧ StoresAt u t .rxbuf 0 r ∧
      t = { s with
        turns := t.turns, mem := t.mem, pending := none, frameLen := BitVec.ofNat 8 f.length, attempts := 1#4,
        rxLen := c, rsp := (unmarshalFrame r c.toNat).rsp s.params c.toNat,
        trace := s.trace ++ (if wakeFirst then [.wakePulse Config.tWakeLow Config.tWakeHigh] else [])
          ++ writeTrace s.devAddr s.ioaddr f ++ [.wait (Config.procDelay s.opcode s.mode)]
          ++ readTrace s.devAddr s.ioaddr 1 [c]
          ++ readTrace s.devAddr s.ioaddr (bodyLength s.params c) (r.drop (c.toNat - bodyLength s.params c)),
        result := (unmarshalFrame r c.toNat).result s.params,
        phase := .idle, busy := false, done := true, seq := none }

/-- EXECUTE's acceptance checks, in order, and its marshalling: SEQ_ERROR, BAD_LENGTH and FRAME_TOO_LARGE complete with RSP at
"no frame" and an empty bus trace, the wake pulse included (43_transaction R196, R197). -/
def Obligations.ExecuteChecksBeforeTheBus : Prop :=
  ∀ (s : State) (wakeFirst : Bool) (code : ResultCode),
    s.atStart = true → s.turns.all Turn.isCtrl = true → 8 ≤ s.turns.length →
    code = (if s.tstate = .failed then .seqError
      else if s.respLen.toNat < 4 ∨ s.params.rxBufSize < s.respLen.toNat then .badLength
      else if s.commandFrame = none then .frameTooLarge else .none) →
    code ≠ .none →
    ∃ t, exec (.execute wakeFirst) s = .next t ∧
      t = { s with
        turns := t.turns, rsp := noFrame, result := code, phase := .idle, busy := false, done := true, seq := none }

/-- A Count below 4 is FRAME_SHORT and a Count above RESP_LEN is FRAME_COUNT_ERROR: RXBUF[0] = c, RX_LEN = 1, no resync and no
retry follow (43_transaction R203). -/
def Obligations.ExecuteChecksTheCountByte : Prop :=
  ∀ (s : State) (wakeFirst : Bool) (c : Byte) (f : List Byte),
    s.atStart = true → s.params.legal = true → s.tstate = .idle →
    4 ≤ s.respLen.toNat → s.respLen.toNat ≤ s.params.rxBufSize → s.commandFrame = some f →
    c.toNat < 4 ∨ s.respLen.toNat < c.toNat →
    s.turns.all (Turn.replies (BusReply.delivers [c])) = true → 3 * f.length + 70 ≤ s.turns.length →
    ∃ t u, exec (.execute wakeFirst) s = .next t ∧ StoresAt s u .txbuf 0 f ∧ StoresAt u t .rxbuf 0 [c] ∧
      t = { s with
        turns := t.turns, mem := t.mem, pending := none, frameLen := BitVec.ofNat 8 f.length, attempts := 1#4,
        rxLen := 1#8, rsp := noFrame,
        trace := s.trace ++ (if wakeFirst then [.wakePulse Config.tWakeLow Config.tWakeHigh] else [])
          ++ writeTrace s.devAddr s.ioaddr f ++ [.wait (Config.procDelay s.opcode s.mode)]
          ++ readTrace s.devAddr s.ioaddr 1 [c],
        result := if c.toNat < 4 then .frameShort else .frameCountError,
        phase := .idle, busy := false, done := true, seq := none }

/-- A count read that does not deliver exactly one byte ends with one resync, COMM_FAIL, RX_LEN = 0 and RXBUF unchanged; the
read is not retried and the command is not sent again (43_transaction R205). And whatever the environment answers, an EXECUTE that
passes its checks and completes ends by a row of the table of R209, with the bus trace of that row: a write that succeeds at a
later attempt, a failed body read, a resync held in `ReadFail`, and a restarted read whose first byte is not the Count included. -/
def Obligations.ExecuteReadFailureIsNotRetried : Prop :=
  (∀ (s : State) (wakeFirst : Bool) (f v : List Byte),
    s.atStart = true → s.params.legal = true → s.tstate = .idle →
    4 ≤ s.respLen.toNat → s.respLen.toNat ≤ s.params.rxBufSize → s.commandFrame = some f → v.length ≠ 1 →
    s.turns.all (Turn.replies (BusReply.delivers v)) = true → 3 * f.length + 70 ≤ s.turns.length →
    ∃ t, exec (.execute wakeFirst) s = .next t ∧ StoresAt s t .txbuf 0 f ∧
      t = { s with
        turns := t.turns, mem := t.mem, pending := none, frameLen := BitVec.ofNat 8 f.length, attempts := 1#4,
        rxLen := 0#8, rsp := noFrame,
        trace := s.trace ++ (if wakeFirst then [.wakePulse Config.tWakeLow Config.tWakeHigh] else [])
          ++ writeTrace s.devAddr s.ioaddr f ++ [.wait (Config.procDelay s.opcode s.mode)]
          ++ readTrace s.devAddr s.ioaddr 1 v ++ resyncTrace,
        result := .commFail, phase := .idle, busy := false, done := true, seq := none }) ∧
  ∀ (s t : State) (wakeFirst : Bool) (f : List Byte),
    s.atStart = true → s.params.legal = true → s.tstate = .idle →
    4 ≤ s.respLen.toNat → s.respLen.toNat ≤ s.params.rxBufSize → s.commandFrame = some f →
    s.turns.all Turn.isCtrl = true → exec (.execute wakeFirst) s = .next t → t.seq = none →
    ∃ (u : State) (tr : List Event) (e : ExecuteEnd), ExecuteRuns s f tr e ∧ StoresAt s u .txbuf 0 f ∧
      StoresAt u t .rxbuf 0 e.stored ∧
      t = { s with
        turns := t.turns, mem := t.mem, pending := none, frameLen := BitVec.ofNat 8 f.length,
        attempts := BitVec.ofNat 4 e.attempts, rxLen := (e.rxLen.map (BitVec.ofNat 8)).getD s.rxLen, rsp := e.rsp,
        tstate := e.tstate,
        trace := s.trace ++ (if wakeFirst then [.wakePulse Config.tWakeLow Config.tWakeHigh] else []) ++ tr,
        result := e.code, phase := .idle, busy := false, done := true, seq := none }

/-- With every address byte unacknowledged and every resync granted, EXECUTE and SLEEP make 1 + RETRIES write attempts, each
followed by one resync, and complete with COMM_FAIL, ATTEMPTS = 1 + RETRIES and TSTATE = IDLE (43_transaction R200). And whatever the
environment answers, a SLEEP that passes its check and completes leaves one of the traces of `WriteWithRetry`, with its answer in
RESULT and its last attempt in ATTEMPTS: a write that succeeds at attempt 2 or later included (R199; EXECUTE's same clause is in
ExecuteReadFailureIsNotRetried). -/
def Obligations.WriteRetryExhaustsItsAttempts : Prop :=
  (∀ (s : State) (i : Instr) (f : List Byte) (before : List Event) (rsp : Rsp),
    s.atStart = true → s.params.legal = true → s.tstate = .idle →
    (∃ idle, i = .sleep idle ∧ f = sleepFrame s.params idle ∧ before = [] ∧ rsp = s.rsp) ∨
    (∃ wakeFirst, i = .execute wakeFirst ∧ s.commandFrame = some f ∧ 4 ≤ s.respLen.toNat ∧
      s.respLen.toNat ≤ s.params.rxBufSize ∧ rsp = noFrame ∧
      before = if wakeFirst then [.wakePulse Config.tWakeLow Config.tWakeHigh] else []) →
    s.turns.all (Turn.replies BusReply.nacks) = true → 20 + 13 * (1 + s.snapRetries) ≤ s.turns.length →
    ∃ t, exec i s = .next t ∧ StoresAt s t .txbuf 0 f ∧
      t = { s with
        turns := t.turns, mem := t.mem, pending := none, frameLen := BitVec.ofNat 8 f.length,
        attempts := BitVec.ofNat 4 (1 + s.snapRetries), rsp := rsp,
        trace := s.trace ++ before
          ++ (List.replicate (1 + s.snapRetries) (nackTrace s.devAddr ++ resyncTrace)).flatten,
        result := .commFail, phase := .idle, busy := false, done := true, seq := none }) ∧
  ∀ (s t : State) (idle : Bool), s.atStart = true → s.params.legal = true → s.tstate = .idle →
    s.turns.all Turn.isCtrl = true → exec (.sleep idle) s = .next t → t.seq = none →
    ∃ tr w a, RetryRuns s.devAddr s.ioaddr (sleepFrame s.params idle) s.snapRetries 1 tr w a ∧
      StoresAt s t .txbuf 0 (sleepFrame s.params idle) ∧
      t = { s with
        turns := t.turns, mem := t.mem, pending := none, frameLen := 9#8, attempts := BitVec.ofNat 4 a,
        trace := s.trace ++ tr, tstate := resyncTState (w != .resyncFail),
        result := w, phase := .idle, busy := false, done := true, seq := none }

/-- With the bus held at every Start, EXECUTE and SLEEP make one attempt and complete with RESYNC_FAIL, ATTEMPTS = 1 and
TSTATE = FAILED (43_transaction R201). -/
def Obligations.HeldResyncEndsTheRetry : Prop :=
  ∀ (s : State) (i : Instr) (f : List Byte) (before : List Event) (rsp : Rsp),
    s.atStart = true → s.params.legal = true → s.tstate = .idle →
    (∃ idle, i = .sleep idle ∧ f = sleepFrame s.params idle ∧ before = [] ∧ rsp = s.rsp) ∨
    (∃ wakeFirst, i = .execute wakeFirst ∧ s.commandFrame = some f ∧ 4 ≤ s.respLen.toNat ∧
      s.respLen.toNat ≤ s.params.rxBufSize ∧ rsp = noFrame ∧
      before = if wakeFirst then [.wakePulse Config.tWakeLow Config.tWakeHigh] else []) →
    s.turns.all (Turn.replies BusReply.holds) = true → 30 ≤ s.turns.length →
    ∃ t, exec i s = .next t ∧ StoresAt s t .txbuf 0 f ∧
      t = { s with
        turns := t.turns, mem := t.mem, pending := none, frameLen := BitVec.ofNat 8 f.length,
        attempts := 1#4, rsp := rsp, tstate := .failed,
        trace := s.trace ++ before ++ [.start .held, .start .held, .start .held],
        result := .resyncFail, phase := .idle, busy := false, done := true, seq := none }

/-- While TSTATE = FAILED, BUS_WRITE, BUS_READ, EXECUTE and SLEEP send nothing and complete with SEQ_ERROR (42_bus R166). -/
def Obligations.NoTransferWhileFailed : Prop :=
  ∀ (s : State) (i : Instr),
    i ∈ [.busWrite, .busRead, .execute false, .execute true, .sleep false, .sleep true] →
    s.atStart = true → s.tstate = .failed → s.turns.all Turn.isCtrl = true → 4 ≤ s.turns.length →
    ∃ t, exec i s = .next t ∧
      t = { s with
        turns := t.turns, rsp := (if i = .execute false ∨ i = .execute true then noFrame else s.rsp),
        result := .seqError, phase := .idle, busy := false, done := true, seq := none }

/-! ## Whole-machine rules -/

/-- The control invariant: BUSY says whether a command runs, PHASE and TSTATE fit the position, between commands PHASE is IDLE
and TSTATE is IDLE or FAILED (10_state R68), and DONE is clear while BUSY. Every step keeps it. -/
def Obligations.StepKeepsControlInvariant : Prop :=
  ∀ s t : State, s.controlOk = true → step s = .next t → t.controlOk = true

/-- ATTEMPTS follows the loop counter and never exceeds 8 (10_state R38, 43_transaction R200). Every step keeps it. -/
def Obligations.StepKeepsAttemptsInvariant : Prop :=
  ∀ s t : State, s.controlOk = true → s.attemptsOk = true → step s = .next t → t.attemptsOk = true

/-- The parameters stay legal and the buffer memory stays in its canonical form (log 17). Every step keeps it. -/
def Obligations.StepKeepsMemoryCanonical : Prop :=
  ∀ s t : State, s.memoryOk = true → step s = .next t → t.memoryOk = true

/-- RSP stays "no frame" or a valid frame's status byte with its own code (10_state R56). Every step keeps it. -/
def Obligations.StepKeepsRspInvariant : Prop :=
  ∀ s t : State, s.rspOk = true → step s = .next t → t.rspOk = true

/-- The four invariants hold right after reset. -/
def Obligations.ResetMeetsTheInvariants : Prop :=
  State.reset.controlOk = true ∧ State.reset.attemptsOk = true ∧ State.reset.memoryOk = true ∧ State.reset.rspOk = true

/-- Every step answers a next state: the controller takes no trap (60_exceptions R240), and no command stops. That an illegal host
access, which 20_memory R70 calls a refusal of that host step, is a next state too is log 9's choice, and that a step with no move
left is one is log 1's. -/
def Obligations.EveryStepAnswersANextState : Prop := ∀ s : State, ∃ t, step s = .next t

/-- Every command completes within `stepBound` answered controller steps, whatever the environment answers and whatever the
host does meanwhile, if no reset comes. 43_transaction R210 and 60_exceptions R268 give a bounded number of steps; the bound itself
counts a line of pseudocode as a step, which is log 2's reading. -/
def Obligations.EveryCommandCompletesWhenAnswered : Prop :=
  ∀ (s : State) (i : Instr), s.atStart = true → s.busy = true → s.params.legal = true →
    s.turns.all Turn.notReset = true → s.stepBound ≤ (s.turns.filter Turn.answered).length →
    ∃ t, exec i s = .next t ∧ t.seq = none ∧ t.busy = false ∧ t.done = true ∧ t.phase = .idle

/-- A host's accesses while a command runs change nothing of what the command does: the run with them and the run without them
end alike, but for CTRL, OVR and the host's own record (20_memory R75, R90). -/
def Obligations.HostAccessesDoNotDisturbARunningCommand : Prop :=
  ∀ (s : State) (i : Instr), s.atStart = true → s.busy = true → s.done = false → s.turns.all Turn.notReset = true →
    ∃ t t', exec i s = .next t ∧
      exec i { s with turns := s.turns.filter fun x => !x.isHost } = .next t' ∧ t.hostBlind = t'.hostBlind

/-- The inputs of a running command stay as they were from acceptance to completion, and its snapshot of the word and RETRIES as long
as it runs, whatever the host and the environment do (20_memory R90, 10_state R63). -/
def Obligations.InputsAreStableWhileBusy : Prop :=
  ∀ (s t : State) (i : Instr), s.params.legal = true → s.busy = true → s.turns.all Turn.notReset = true →
    s.atStart = true → exec i s = .next t → SameInputs s t

/-- A command writes only the registers and buffers its rule lists, whatever its outcome and whatever the host and the
environment do. -/
def Obligations.CommandsWriteOnlyTheirOutputs : Prop :=
  ∀ (s t : State) (i : Instr), s.busy = true → s.turns.all Turn.notReset = true → s.atStart = true →
    exec i s = .next t → Untouched s t i

/-- After EXECUTE and UNMARSHAL, RESULT is a device code exactly when RSP holds a valid frame, OK exactly when its code is
SUCCESS, and RSP is "no frame" otherwise (60_exceptions R244). -/
def Obligations.DeviceAndLinkResultsAreNeverConflated : Prop :=
  ∀ (s t : State) (i : Instr), i ∈ [.unmarshal, .execute false, .execute true] →
    s.atStart = true → s.busy = true → s.turns.all Turn.notReset = true →
    exec i s = .next t → t.seq = none →
    (t.result ∈ [.ok, .deviceError, .unknownDeviceError] ↔ t.rsp.valid = true) ∧
    (t.rsp.valid = true → t.result = deviceResult t.rsp.code) ∧
    (t.rsp.valid = false → t.rsp = noFrame)

/-- Only a RESYNC (or a reset) leaves FAILED: every other command that starts with TSTATE = FAILED ends with it
(42_bus R166). -/
def Obligations.OnlyResyncLeavesFailed : Prop :=
  ∀ (s t : State) (i : Instr), i ≠ .resync → s.atStart = true → s.busy = true → s.tstate = .failed →
    s.turns.all Turn.notReset = true → exec i s = .next t → t.tstate = .failed

/-- When the environment never answers, WAKE and RESYNC never complete: BUSY stays 1, DONE stays 0, and the unanswered action is held
(42_bus R173). The same at every line of every command that issues a bus action: while no answer comes the command stays there, with
the action held, and BUSY, DONE and RESULT as they were; once an answer comes it is that action's event. That an action joins the
bus trace when it is answered and not before is log 12's choice. -/
def Obligations.UnansweredBusActionHangs : Prop :=
  (∀ (s : State) (i : Instr) (a : Action), (i, a) ∈ [(Instr.wake, wakePulse), (.resync, .start)] →
    s.atStart = true → s.busy = true → s.done = false →
    s.turns.all (fun x => x.notReset && !x.answered) = true → 2 ≤ (s.turns.filter Turn.isCtrl).length →
    ∃ t, exec i s = .next t ∧ t.busy = true ∧ t.done = false ∧ t.trace = s.trace ∧ t.pending = some a ∧
      t.result = s.result) ∧
  (∀ (s : State) (i : Instr) (q : Seq) (a : Action), s.seq = some q → s.actionAt q.pos = some a →
    s.busy = true → s.done = false →
    s.turns.all (fun x => x.notReset && !x.answered) = true → 1 ≤ (s.turns.filter Turn.isCtrl).length →
    ∃ t, exec i s = .next t ∧ t.seq = some q ∧ t.busy = true ∧ t.done = false ∧ t.trace = s.trace ∧ t.pending = some a ∧
      t.result = s.result) ∧
  ∀ (s : State) (i : Instr) (q : Seq) (a : Action) (r : BusReply), s.seq = some q → s.actionAt q.pos = some a →
    s.turns = [.ctrl (some r)] → ∃ t, exec i s = .next t ∧ t.trace = s.trace ++ [a.event r] ∧ t.pending = none

/-! ## Host side -/

/-- An illegal access gets an error response and changes nothing else, OVR included (20_memory R70); that it is a next state
and not a refusal of the step is log 9's choice. -/
def Obligations.IllegalAccessChangesNothing : Prop :=
  ∀ (s : State) (a : Access) (off size : Nat) (rest : List Turn),
    (a = .read off size ∨ ∃ v, a = .write off size v) → s.turns = .host a :: rest → target s.params off size = none →
    step s = .next { s with turns := rest, hostLog := s.hostLog ++ [.error] }

/-- The legal accesses: 32 bits, a multiple of 4, a register's offset or an implemented buffer entry's (20_memory R70, R71). -/
def Obligations.MappedOffsetsAreTheRegistersAndBufferEntries : Prop :=
  ∀ (p : Params) (off size : Nat), p.legal = true →
    ((target p off size).isSome = true ↔
      size = 4 ∧ off % 4 = 0 ∧ (off ≤ 0x04C ∨ ∃ (b : Buf) (i : Nat), i < b.size p ∧ off = b.offset i))

/-- While BUSY = 1 a write to CMD, to a parameter register or to a buffer entry is dropped: the target keeps its value and OVR is
set. Writes to CTRL and STATUS take effect as always (20_memory R75). -/
def Obligations.BusyWritesAreDroppedAndSetOvr : Prop :=
  ∀ (s : State) (off : Nat) (v : Word) (rest : List Turn),
    s.params.legal = true → s.busy = true → s.turns = .host (.write off 4 v) :: rest →
    ((off % 4 = 0 ∧ (off = 0x008 ∨ (0x010 ≤ off ∧ off ≤ 0x03C) ∨ off = 0x044)) ∨
        (∃ (b : Buf) (i : Nat), i < b.size s.params ∧ off = b.offset i) →
      step s = .next { s with turns := rest, ovr := true, hostLog := s.hostLog ++ [.done] }) ∧
    (off = 0x000 → step s = .next { s with
      turns := rest, ie := v.getLsbD 0, retries := v.extractLsb' 4 3, hostLog := s.hostLog ++ [.done] }) ∧
    (off = 0x004 → step s = .next { s with
      turns := rest, done := s.done && !v.getLsbD 1, ovr := s.ovr && !v.getLsbD 2, hostLog := s.hostLog ++ [.done] })

/-- CTRL and STATUS writes take effect at any time, BUSY = 1 included: CTRL takes IE and RETRIES, and a STATUS write clears
DONE by bit 1 and OVR by bit 2 and ignores every other bit (10_state R31, R32). -/
def Obligations.CtrlAndStatusWritesTakeEffectAnyTime : Prop :=
  ∀ (s : State) (v : Word) (rest : List Turn),
    (s.turns = .host (.write 0x000 4 v) :: rest →
      step s = .next { s with
        turns := rest, ie := v.getLsbD 0, retries := v.extractLsb' 4 3, hostLog := s.hostLog ++ [.done] }) ∧
    (s.turns = .host (.write 0x004 4 v) :: rest →
      step s = .next { s with
        turns := rest, done := s.done && !v.getLsbD 1, ovr := s.ovr && !v.getLsbD 2, hostLog := s.hostLog ++ [.done] })

/-- A write to a read-only register is ignored without error (20_memory R73; while BUSY = 1 by log 10's inference). -/
def Obligations.ReadOnlyRegistersIgnoreWrites : Prop :=
  ∀ (s : State) (off : Nat) (v : Word) (rest : List Turn), off ∈ [0x00C, 0x040, 0x048, 0x04C] →
    s.turns = .host (.write off 4 v) :: rest →
    step s = .next { s with turns := rest, hostLog := s.hostLog ++ [.done] }

/-- While BUSY = 0 a parameter register reads back the defined fields of the word written, reserved bits 0, and a buffer entry
the byte written; and the write changes nothing else, neither another register nor another byte (20_memory R73, R76, 10_state R60,
R61). -/
def Obligations.WrittenRegistersAndEntriesReadBack : Prop :=
  (∀ (s : State) (off : Nat) (v mask : Word), s.params.legal = true → s.busy = false →
    (off, mask) ∈ [(0x000, 0x71#32), (0x010, 0x7F#32), (0x014, 0xFFFF#32), (0x018, 0xFFFF#32), (0x01C, 0xFF#32),
        (0x020, 0xFF#32), (0x024, 0xFFFF#32), (0x028, 0xFFFF#32), (0x02C, 0xFFFFFFFF#32), (0x030, 0xFF#32),
        (0x034, 0xFF#32), (0x038, 0xFF#32), (0x03C, 0xFF#32), (0x044, 0xFF#32)] ∨
      (mask = 0xFF#32 ∧ ∃ (b : Buf) (i : Nat), i < b.size s.params ∧ off = b.offset i) →
    ((s.access (.write off 4 v)).access (.read off 4)).hostLog = s.hostLog ++ [.done, .data (v &&& mask)]) ∧
  (∀ (s u : State) (off : Nat) (v : Word) (rest : List Turn), s.busy = false → s.turns = .host (.write off 4 v) :: rest →
    (off, u) ∈ [(0x000, { s with ie := v.getLsbD 0, retries := v.extractLsb' 4 3 }),
      (0x010, { s with devAddr := v.extractLsb' 0 7 }), (0x014, { s with waddr := v.extractLsb' 0 16 }),
      (0x018, { s with ioaddr := v.extractLsb' 0 16 }), (0x01C, { s with opcode := v.extractLsb' 0 8 }),
      (0x020, { s with mode := v.extractLsb' 0 8 }), (0x024, { s with param1 := v.extractLsb' 0 16 }),
      (0x028, { s with param2 := v.extractLsb' 0 16 }), (0x02C, { s with dlen := v }),
      (0x030, { s with wrLen := v.extractLsb' 0 8 }), (0x034, { s with rdLen := v.extractLsb' 0 8 }),
      (0x038, { s with crcLen := v.extractLsb' 0 8 }), (0x03C, { s with respLen := v.extractLsb' 0 8 }),
      (0x044, { s with rxLen := v.extractLsb' 0 8 })] →
    step s = .next { u with turns := rest, hostLog := s.hostLog ++ [.done] }) ∧
  ∀ (s : State) (b : Buf) (i : Nat) (v : Word) (rest : List Turn), s.params.legal = true → s.busy = false →
    i < b.size s.params → s.turns = .host (.write (b.offset i) 4 v) :: rest →
    ∃ t, step s = .next t ∧ StoresAt s t b i [v.extractLsb' 0 8] ∧
      t = { s with turns := rest, mem := t.mem, hostLog := s.hostLog ++ [.done] }

/-- A read changes nothing but the model's own record and count of draws: it has no side effect (20_memory R76). -/
def Obligations.ReadsHaveNoSideEffect : Prop :=
  ∀ (s t : State) (off size : Nat) (rest : List Turn), s.turns = .host (.read off size) :: rest → step s = .next t →
    t = { s with turns := rest, hostLog := t.hostLog, draws := t.draws }

/-- While BUSY = 1 an output reads as a free value with its reserved bits 0, a fresh one each time, and STATUS reads live
(20_memory R72, R74; the free value is log 8's). Every other legal read returns the current value: CTRL, STATUS, CMD, the parameter
registers and DBUF at any time, and RESULT, FRAME_LEN, RX_LEN, CRC, RSP, TXBUF and RXBUF while BUSY = 0. -/
def Obligations.BusyReadsOfOutputsAreFree : Prop :=
  (∀ (s : State) (off : Nat) (mask : Word) (rest : List Turn), s.params.legal = true → s.busy = true →
    s.turns = .host (.read off 4) :: rest →
    ((off, mask) ∈ [(0x00C, 0xFF#32), (0x040, 0xFF#32), (0x044, 0xFF#32), (0x048, 0xFFFF#32), (0x04C, 0x80FF0FFF#32)] ∨
        (mask = 0xFF#32 ∧ ∃ (b : Buf) (i : Nat), b ≠ .dbuf ∧ i < b.size s.params ∧ off = b.offset i) →
      step s = .next { s with
        turns := rest, draws := s.draws + 1,
        hostLog := s.hostLog ++ [.data (Config.busyRead s.draws &&& mask)] }) ∧
    (off = 0x004 → step s = .next { s with turns := rest, hostLog := s.hostLog ++ [.data s.statusWord] })) ∧
  ∀ (s : State) (off : Nat) (w : Word) (rest : List Turn), s.params.legal = true → s.turns = .host (.read off 4) :: rest →
    (off, w) ∈ s.liveWords ∨
      (∃ i, i < s.params.dbufSize ∧ off = Buf.dbuf.offset i ∧ w = (s.byteAt off).zeroExtend 32) ∨
      (s.busy = false ∧ ((off, w) ∈ s.outputWords ∨
        ∃ (b : Buf) (i : Nat), i < b.size s.params ∧ off = b.offset i ∧ w = (s.byteAt off).zeroExtend 32)) →
    step s = .next { s with turns := rest, hostLog := s.hostLog ++ [.data w] }

/-- IRQ is DONE AND IE at every instant (10_state R65): it follows IE at completion, and acceptance or a STATUS write of bit 1
clears it (60_exceptions R258). -/
def Obligations.IrqIsDoneAndEnabled : Prop :=
  ∀ (s : State) (code : ResultCode) (w v : Word),
    (s.irq = true ↔ s.done = true ∧ s.ie = true) ∧ (s.complete code).irq = s.ie ∧ (s.accept w).irq = false ∧
      (v.getLsbD 1 = true → (s.writeStatus v).irq = false)

/-! ## Reset -/

/-- The reset step, at any time: every register at its reset value and no hidden state, and every buffer byte a fresh free value
(70_reset_and_hazards R270, R272; the free value is log 7's). That the bus trace and the host's record are kept, and an abandoned
action joins neither, is log 12's choice; the count of `any` reads is kept by log 8's. -/
def Obligations.ResetStepRestoresResetValues : Prop :=
  ∀ (s : State) (rest : List Turn), s.turns = .reset :: rest →
    ∃ t, step s = .next t ∧ t.irq = false ∧
      t = { State.initial s.params with
        turns := rest, trace := s.trace, hostLog := s.hostLog, draws := s.draws, epoch := s.epoch + 1 } ∧
      ∀ off, t.byteAt off = Config.bufferByte (s.epoch + 1) off

/-- The register words after reset (70_reset_and_hazards R271): the host reads each at its reset value, for every legal
parameters; with the defaults DEV_ADDR reads 0x50, IOADDR 0xFE00 and RESP_LEN 0x40. -/
def Obligations.ResetRegisterWords : Prop :=
  (∀ p : Params, p.legal = true →
    [Reg.status, .cmd, .waddr, .opcode, .mode, .param1, .param2, .dlen, .wrLen, .rdLen, .crcLen, .frameLen, .rxLen,
      .crc].all (fun r => (State.initial p).regWord r == 0#32) = true ∧
    (State.initial p).regWord .result = 0xFF#32 ∧ (State.initial p).regWord .rsp = 0x00000F00#32 ∧
    (State.initial p).regWord .respLen = BitVec.ofNat 32 p.rxBufSize ∧
    (State.initial p).regWord .devAddr = p.devAddrReset.zeroExtend 32 ∧
    (State.initial p).regWord .ioaddr = p.ioaddrReset.zeroExtend 32 ∧ (State.initial p).irq = false) ∧
  State.reset.regWord .ctrl = 0x00000030#32 ∧ State.reset.regWord .devAddr = 0x50#32 ∧
  State.reset.regWord .ioaddr = 0xFE00#32 ∧ State.reset.regWord .respLen = 0x40#32

/-- Where every field of CTRL, STATUS and RSP stands in its word, reserved bits 0, and the value each named state, phase, result code
and status code has there (10_state R31, R32, R36, R37, R56, 60_exceptions R243, 41_framer R150). -/
def Obligations.RegisterWordsPlaceEveryField : Prop :=
  (∀ s : State, s.ctrlWord.getLsbD 0 = s.ie ∧ s.ctrlWord.extractLsb' 4 3 = s.retries ∧ s.ctrlWord &&& 0xFFFFFF8E#32 = 0#32) ∧
  (∀ s : State, s.statusWord.getLsbD 0 = s.busy ∧ s.statusWord.getLsbD 1 = s.done ∧ s.statusWord.getLsbD 2 = s.ovr ∧
    s.statusWord.extractLsb' 4 3 = s.tstate.bits ∧ s.statusWord.extractLsb' 8 4 = s.phase.bits ∧
    s.statusWord.extractLsb' 12 4 = s.attempts ∧ s.statusWord &&& 0xFFFF0088#32 = 0#32) ∧
  (∀ r : Rsp, r.word.extractLsb' 0 8 = r.status ∧ r.word.extractLsb' 8 4 = deviceCodeBits r.code ∧
    r.word.extractLsb' 16 8 = r.dlen ∧ r.word.getLsbD 31 = r.valid ∧ r.word &&& 0x7F00F000#32 = 0#32) ∧
  [TState.idle, .addrW, .dataSent, .stopSent, .rstartPending, .addrR, .dataReceived, .failed].map TState.bits =
    [0#3, 1#3, 2#3, 3#3, 4#3, 5#3, 6#3, 7#3] ∧
  [Phase.idle, .check, .crc, .marshal, .unmarshal, .wake, .write, .resync, .wait, .readCount, .readBody, .read].map Phase.bits =
    [0#4, 1#4, 2#4, 3#4, 4#4, 5#4, 6#4, 7#4, 8#4, 9#4, 10#4, 11#4] ∧
  [ResultCode.ok, .deviceError, .unknownDeviceError, .commFail, .resyncFail, .frameTooLarge, .frameShort, .crcError,
      .frameCountError, .badCommand, .seqError, .badLength, .none].map ResultCode.byte =
    [0x00#8, 0x01#8, 0x02#8, 0x10#8, 0x11#8, 0x20#8, 0x21#8, 0x22#8, 0x23#8, 0x30#8, 0x31#8, 0x32#8, 0xFF#8] ∧
  [DeviceCode.success, .boundaryError, .rwConfigError, .badAddress, .countError, .nonceError, .macError, .parseError,
      .dataMismatch, .lockError, .keyError, .tempSenseError, .unknown, .none].map deviceCodeBits =
    [0#4, 1#4, 2#4, 3#4, 4#4, 5#4, 6#4, 7#4, 8#4, 9#4, 10#4, 11#4, 14#4, 15#4]
end

