-- ==== Sys2Proof/Laws/State.lean ====
section
/-! SUPPORT. One lemma per field per named update of the state, each true by `rfl`, and the same for the bytes of the buffers, so
that no later proof unfolds an update. -/

namespace Sys2Proof.Machine

/-! ## `setPhase` -/

@[simp] theorem State.setPhase_params (p : Phase) (s : State) : (s.setPhase p).params = s.params := rfl
@[simp] theorem State.setPhase_turns (p : Phase) (s : State) : (s.setPhase p).turns = s.turns := rfl
@[simp] theorem State.setPhase_seq (p : Phase) (s : State) : (s.setPhase p).seq = s.seq := rfl
@[simp] theorem State.setPhase_pending (p : Phase) (s : State) : (s.setPhase p).pending = s.pending := rfl
@[simp] theorem State.setPhase_trace (p : Phase) (s : State) : (s.setPhase p).trace = s.trace := rfl
@[simp] theorem State.setPhase_hostLog (p : Phase) (s : State) : (s.setPhase p).hostLog = s.hostLog := rfl
@[simp] theorem State.setPhase_epoch (p : Phase) (s : State) : (s.setPhase p).epoch = s.epoch := rfl
@[simp] theorem State.setPhase_draws (p : Phase) (s : State) : (s.setPhase p).draws = s.draws := rfl
@[simp] theorem State.setPhase_mem (p : Phase) (s : State) : (s.setPhase p).mem = s.mem := rfl
@[simp] theorem State.setPhase_ie (p : Phase) (s : State) : (s.setPhase p).ie = s.ie := rfl
@[simp] theorem State.setPhase_retries (p : Phase) (s : State) : (s.setPhase p).retries = s.retries := rfl
@[simp] theorem State.setPhase_busy (p : Phase) (s : State) : (s.setPhase p).busy = s.busy := rfl
@[simp] theorem State.setPhase_done (p : Phase) (s : State) : (s.setPhase p).done = s.done := rfl
@[simp] theorem State.setPhase_ovr (p : Phase) (s : State) : (s.setPhase p).ovr = s.ovr := rfl
@[simp] theorem State.setPhase_tstate (p : Phase) (s : State) : (s.setPhase p).tstate = s.tstate := rfl
@[simp] theorem State.setPhase_phase (p : Phase) (s : State) : (s.setPhase p).phase = p := rfl
@[simp] theorem State.setPhase_attempts (p : Phase) (s : State) : (s.setPhase p).attempts = s.attempts := rfl
@[simp] theorem State.setPhase_cmd (p : Phase) (s : State) : (s.setPhase p).cmd = s.cmd := rfl
@[simp] theorem State.setPhase_result (p : Phase) (s : State) : (s.setPhase p).result = s.result := rfl
@[simp] theorem State.setPhase_devAddr (p : Phase) (s : State) : (s.setPhase p).devAddr = s.devAddr := rfl
@[simp] theorem State.setPhase_waddr (p : Phase) (s : State) : (s.setPhase p).waddr = s.waddr := rfl
@[simp] theorem State.setPhase_ioaddr (p : Phase) (s : State) : (s.setPhase p).ioaddr = s.ioaddr := rfl
@[simp] theorem State.setPhase_opcode (p : Phase) (s : State) : (s.setPhase p).opcode = s.opcode := rfl
@[simp] theorem State.setPhase_mode (p : Phase) (s : State) : (s.setPhase p).mode = s.mode := rfl
@[simp] theorem State.setPhase_param1 (p : Phase) (s : State) : (s.setPhase p).param1 = s.param1 := rfl
@[simp] theorem State.setPhase_param2 (p : Phase) (s : State) : (s.setPhase p).param2 = s.param2 := rfl
@[simp] theorem State.setPhase_dlen (p : Phase) (s : State) : (s.setPhase p).dlen = s.dlen := rfl
@[simp] theorem State.setPhase_wrLen (p : Phase) (s : State) : (s.setPhase p).wrLen = s.wrLen := rfl
@[simp] theorem State.setPhase_rdLen (p : Phase) (s : State) : (s.setPhase p).rdLen = s.rdLen := rfl
@[simp] theorem State.setPhase_crcLen (p : Phase) (s : State) : (s.setPhase p).crcLen = s.crcLen := rfl
@[simp] theorem State.setPhase_respLen (p : Phase) (s : State) : (s.setPhase p).respLen = s.respLen := rfl
@[simp] theorem State.setPhase_frameLen (p : Phase) (s : State) : (s.setPhase p).frameLen = s.frameLen := rfl
@[simp] theorem State.setPhase_rxLen (p : Phase) (s : State) : (s.setPhase p).rxLen = s.rxLen := rfl
@[simp] theorem State.setPhase_crc (p : Phase) (s : State) : (s.setPhase p).crc = s.crc := rfl
@[simp] theorem State.setPhase_rsp (p : Phase) (s : State) : (s.setPhase p).rsp = s.rsp := rfl
@[simp] theorem State.setPhase_byteAt (p : Phase) (s : State) (o : Nat) : (s.setPhase p).byteAt o = s.byteAt o := rfl
@[simp] theorem State.setPhase_bufByte (p : Phase) (s : State) (b : Buf) (i : Nat) : (s.setPhase p).bufByte b i = s.bufByte b i := rfl
@[simp] theorem State.setPhase_bufSlice (p : Phase) (s : State) (b : Buf) (i k : Nat) : (s.setPhase p).bufSlice b i k = s.bufSlice b i k := rfl

/-! ## `setTState` -/

@[simp] theorem State.setTState_params (x : TState) (s : State) : (s.setTState x).params = s.params := rfl
@[simp] theorem State.setTState_turns (x : TState) (s : State) : (s.setTState x).turns = s.turns := rfl
@[simp] theorem State.setTState_seq (x : TState) (s : State) : (s.setTState x).seq = s.seq := rfl
@[simp] theorem State.setTState_pending (x : TState) (s : State) : (s.setTState x).pending = s.pending := rfl
@[simp] theorem State.setTState_trace (x : TState) (s : State) : (s.setTState x).trace = s.trace := rfl
@[simp] theorem State.setTState_hostLog (x : TState) (s : State) : (s.setTState x).hostLog = s.hostLog := rfl
@[simp] theorem State.setTState_epoch (x : TState) (s : State) : (s.setTState x).epoch = s.epoch := rfl
@[simp] theorem State.setTState_draws (x : TState) (s : State) : (s.setTState x).draws = s.draws := rfl
@[simp] theorem State.setTState_mem (x : TState) (s : State) : (s.setTState x).mem = s.mem := rfl
@[simp] theorem State.setTState_ie (x : TState) (s : State) : (s.setTState x).ie = s.ie := rfl
@[simp] theorem State.setTState_retries (x : TState) (s : State) : (s.setTState x).retries = s.retries := rfl
@[simp] theorem State.setTState_busy (x : TState) (s : State) : (s.setTState x).busy = s.busy := rfl
@[simp] theorem State.setTState_done (x : TState) (s : State) : (s.setTState x).done = s.done := rfl
@[simp] theorem State.setTState_ovr (x : TState) (s : State) : (s.setTState x).ovr = s.ovr := rfl
@[simp] theorem State.setTState_tstate (x : TState) (s : State) : (s.setTState x).tstate = x := rfl
@[simp] theorem State.setTState_phase (x : TState) (s : State) : (s.setTState x).phase = s.phase := rfl
@[simp] theorem State.setTState_attempts (x : TState) (s : State) : (s.setTState x).attempts = s.attempts := rfl
@[simp] theorem State.setTState_cmd (x : TState) (s : State) : (s.setTState x).cmd = s.cmd := rfl
@[simp] theorem State.setTState_result (x : TState) (s : State) : (s.setTState x).result = s.result := rfl
@[simp] theorem State.setTState_devAddr (x : TState) (s : State) : (s.setTState x).devAddr = s.devAddr := rfl
@[simp] theorem State.setTState_waddr (x : TState) (s : State) : (s.setTState x).waddr = s.waddr := rfl
@[simp] theorem State.setTState_ioaddr (x : TState) (s : State) : (s.setTState x).ioaddr = s.ioaddr := rfl
@[simp] theorem State.setTState_opcode (x : TState) (s : State) : (s.setTState x).opcode = s.opcode := rfl
@[simp] theorem State.setTState_mode (x : TState) (s : State) : (s.setTState x).mode = s.mode := rfl
@[simp] theorem State.setTState_param1 (x : TState) (s : State) : (s.setTState x).param1 = s.param1 := rfl
@[simp] theorem State.setTState_param2 (x : TState) (s : State) : (s.setTState x).param2 = s.param2 := rfl
@[simp] theorem State.setTState_dlen (x : TState) (s : State) : (s.setTState x).dlen = s.dlen := rfl
@[simp] theorem State.setTState_wrLen (x : TState) (s : State) : (s.setTState x).wrLen = s.wrLen := rfl
@[simp] theorem State.setTState_rdLen (x : TState) (s : State) : (s.setTState x).rdLen = s.rdLen := rfl
@[simp] theorem State.setTState_crcLen (x : TState) (s : State) : (s.setTState x).crcLen = s.crcLen := rfl
@[simp] theorem State.setTState_respLen (x : TState) (s : State) : (s.setTState x).respLen = s.respLen := rfl
@[simp] theorem State.setTState_frameLen (x : TState) (s : State) : (s.setTState x).frameLen = s.frameLen := rfl
@[simp] theorem State.setTState_rxLen (x : TState) (s : State) : (s.setTState x).rxLen = s.rxLen := rfl
@[simp] theorem State.setTState_crc (x : TState) (s : State) : (s.setTState x).crc = s.crc := rfl
@[simp] theorem State.setTState_rsp (x : TState) (s : State) : (s.setTState x).rsp = s.rsp := rfl
@[simp] theorem State.setTState_byteAt (x : TState) (s : State) (o : Nat) : (s.setTState x).byteAt o = s.byteAt o := rfl
@[simp] theorem State.setTState_bufByte (x : TState) (s : State) (b : Buf) (i : Nat) : (s.setTState x).bufByte b i = s.bufByte b i := rfl
@[simp] theorem State.setTState_bufSlice (x : TState) (s : State) (b : Buf) (i k : Nat) : (s.setTState x).bufSlice b i k = s.bufSlice b i k := rfl

/-! ## `setRsp` -/

@[simp] theorem State.setRsp_params (r : Rsp) (s : State) : (s.setRsp r).params = s.params := rfl
@[simp] theorem State.setRsp_turns (r : Rsp) (s : State) : (s.setRsp r).turns = s.turns := rfl
@[simp] theorem State.setRsp_seq (r : Rsp) (s : State) : (s.setRsp r).seq = s.seq := rfl
@[simp] theorem State.setRsp_pending (r : Rsp) (s : State) : (s.setRsp r).pending = s.pending := rfl
@[simp] theorem State.setRsp_trace (r : Rsp) (s : State) : (s.setRsp r).trace = s.trace := rfl
@[simp] theorem State.setRsp_hostLog (r : Rsp) (s : State) : (s.setRsp r).hostLog = s.hostLog := rfl
@[simp] theorem State.setRsp_epoch (r : Rsp) (s : State) : (s.setRsp r).epoch = s.epoch := rfl
@[simp] theorem State.setRsp_draws (r : Rsp) (s : State) : (s.setRsp r).draws = s.draws := rfl
@[simp] theorem State.setRsp_mem (r : Rsp) (s : State) : (s.setRsp r).mem = s.mem := rfl
@[simp] theorem State.setRsp_ie (r : Rsp) (s : State) : (s.setRsp r).ie = s.ie := rfl
@[simp] theorem State.setRsp_retries (r : Rsp) (s : State) : (s.setRsp r).retries = s.retries := rfl
@[simp] theorem State.setRsp_busy (r : Rsp) (s : State) : (s.setRsp r).busy = s.busy := rfl
@[simp] theorem State.setRsp_done (r : Rsp) (s : State) : (s.setRsp r).done = s.done := rfl
@[simp] theorem State.setRsp_ovr (r : Rsp) (s : State) : (s.setRsp r).ovr = s.ovr := rfl
@[simp] theorem State.setRsp_tstate (r : Rsp) (s : State) : (s.setRsp r).tstate = s.tstate := rfl
@[simp] theorem State.setRsp_phase (r : Rsp) (s : State) : (s.setRsp r).phase = s.phase := rfl
@[simp] theorem State.setRsp_attempts (r : Rsp) (s : State) : (s.setRsp r).attempts = s.attempts := rfl
@[simp] theorem State.setRsp_cmd (r : Rsp) (s : State) : (s.setRsp r).cmd = s.cmd := rfl
@[simp] theorem State.setRsp_result (r : Rsp) (s : State) : (s.setRsp r).result = s.result := rfl
@[simp] theorem State.setRsp_devAddr (r : Rsp) (s : State) : (s.setRsp r).devAddr = s.devAddr := rfl
@[simp] theorem State.setRsp_waddr (r : Rsp) (s : State) : (s.setRsp r).waddr = s.waddr := rfl
@[simp] theorem State.setRsp_ioaddr (r : Rsp) (s : State) : (s.setRsp r).ioaddr = s.ioaddr := rfl
@[simp] theorem State.setRsp_opcode (r : Rsp) (s : State) : (s.setRsp r).opcode = s.opcode := rfl
@[simp] theorem State.setRsp_mode (r : Rsp) (s : State) : (s.setRsp r).mode = s.mode := rfl
@[simp] theorem State.setRsp_param1 (r : Rsp) (s : State) : (s.setRsp r).param1 = s.param1 := rfl
@[simp] theorem State.setRsp_param2 (r : Rsp) (s : State) : (s.setRsp r).param2 = s.param2 := rfl
@[simp] theorem State.setRsp_dlen (r : Rsp) (s : State) : (s.setRsp r).dlen = s.dlen := rfl
@[simp] theorem State.setRsp_wrLen (r : Rsp) (s : State) : (s.setRsp r).wrLen = s.wrLen := rfl
@[simp] theorem State.setRsp_rdLen (r : Rsp) (s : State) : (s.setRsp r).rdLen = s.rdLen := rfl
@[simp] theorem State.setRsp_crcLen (r : Rsp) (s : State) : (s.setRsp r).crcLen = s.crcLen := rfl
@[simp] theorem State.setRsp_respLen (r : Rsp) (s : State) : (s.setRsp r).respLen = s.respLen := rfl
@[simp] theorem State.setRsp_frameLen (r : Rsp) (s : State) : (s.setRsp r).frameLen = s.frameLen := rfl
@[simp] theorem State.setRsp_rxLen (r : Rsp) (s : State) : (s.setRsp r).rxLen = s.rxLen := rfl
@[simp] theorem State.setRsp_crc (r : Rsp) (s : State) : (s.setRsp r).crc = s.crc := rfl
@[simp] theorem State.setRsp_rsp (r : Rsp) (s : State) : (s.setRsp r).rsp = r := rfl
@[simp] theorem State.setRsp_byteAt (r : Rsp) (s : State) (o : Nat) : (s.setRsp r).byteAt o = s.byteAt o := rfl
@[simp] theorem State.setRsp_bufByte (r : Rsp) (s : State) (b : Buf) (i : Nat) : (s.setRsp r).bufByte b i = s.bufByte b i := rfl
@[simp] theorem State.setRsp_bufSlice (r : Rsp) (s : State) (b : Buf) (i k : Nat) : (s.setRsp r).bufSlice b i k = s.bufSlice b i k := rfl

/-! ## `setRxLen` -/

@[simp] theorem State.setRxLen_params (n : Nat) (s : State) : (s.setRxLen n).params = s.params := rfl
@[simp] theorem State.setRxLen_turns (n : Nat) (s : State) : (s.setRxLen n).turns = s.turns := rfl
@[simp] theorem State.setRxLen_seq (n : Nat) (s : State) : (s.setRxLen n).seq = s.seq := rfl
@[simp] theorem State.setRxLen_pending (n : Nat) (s : State) : (s.setRxLen n).pending = s.pending := rfl
@[simp] theorem State.setRxLen_trace (n : Nat) (s : State) : (s.setRxLen n).trace = s.trace := rfl
@[simp] theorem State.setRxLen_hostLog (n : Nat) (s : State) : (s.setRxLen n).hostLog = s.hostLog := rfl
@[simp] theorem State.setRxLen_epoch (n : Nat) (s : State) : (s.setRxLen n).epoch = s.epoch := rfl
@[simp] theorem State.setRxLen_draws (n : Nat) (s : State) : (s.setRxLen n).draws = s.draws := rfl
@[simp] theorem State.setRxLen_mem (n : Nat) (s : State) : (s.setRxLen n).mem = s.mem := rfl
@[simp] theorem State.setRxLen_ie (n : Nat) (s : State) : (s.setRxLen n).ie = s.ie := rfl
@[simp] theorem State.setRxLen_retries (n : Nat) (s : State) : (s.setRxLen n).retries = s.retries := rfl
@[simp] theorem State.setRxLen_busy (n : Nat) (s : State) : (s.setRxLen n).busy = s.busy := rfl
@[simp] theorem State.setRxLen_done (n : Nat) (s : State) : (s.setRxLen n).done = s.done := rfl
@[simp] theorem State.setRxLen_ovr (n : Nat) (s : State) : (s.setRxLen n).ovr = s.ovr := rfl
@[simp] theorem State.setRxLen_tstate (n : Nat) (s : State) : (s.setRxLen n).tstate = s.tstate := rfl
@[simp] theorem State.setRxLen_phase (n : Nat) (s : State) : (s.setRxLen n).phase = s.phase := rfl
@[simp] theorem State.setRxLen_attempts (n : Nat) (s : State) : (s.setRxLen n).attempts = s.attempts := rfl
@[simp] theorem State.setRxLen_cmd (n : Nat) (s : State) : (s.setRxLen n).cmd = s.cmd := rfl
@[simp] theorem State.setRxLen_result (n : Nat) (s : State) : (s.setRxLen n).result = s.result := rfl
@[simp] theorem State.setRxLen_devAddr (n : Nat) (s : State) : (s.setRxLen n).devAddr = s.devAddr := rfl
@[simp] theorem State.setRxLen_waddr (n : Nat) (s : State) : (s.setRxLen n).waddr = s.waddr := rfl
@[simp] theorem State.setRxLen_ioaddr (n : Nat) (s : State) : (s.setRxLen n).ioaddr = s.ioaddr := rfl
@[simp] theorem State.setRxLen_opcode (n : Nat) (s : State) : (s.setRxLen n).opcode = s.opcode := rfl
@[simp] theorem State.setRxLen_mode (n : Nat) (s : State) : (s.setRxLen n).mode = s.mode := rfl
@[simp] theorem State.setRxLen_param1 (n : Nat) (s : State) : (s.setRxLen n).param1 = s.param1 := rfl
@[simp] theorem State.setRxLen_param2 (n : Nat) (s : State) : (s.setRxLen n).param2 = s.param2 := rfl
@[simp] theorem State.setRxLen_dlen (n : Nat) (s : State) : (s.setRxLen n).dlen = s.dlen := rfl
@[simp] theorem State.setRxLen_wrLen (n : Nat) (s : State) : (s.setRxLen n).wrLen = s.wrLen := rfl
@[simp] theorem State.setRxLen_rdLen (n : Nat) (s : State) : (s.setRxLen n).rdLen = s.rdLen := rfl
@[simp] theorem State.setRxLen_crcLen (n : Nat) (s : State) : (s.setRxLen n).crcLen = s.crcLen := rfl
@[simp] theorem State.setRxLen_respLen (n : Nat) (s : State) : (s.setRxLen n).respLen = s.respLen := rfl
@[simp] theorem State.setRxLen_frameLen (n : Nat) (s : State) : (s.setRxLen n).frameLen = s.frameLen := rfl
@[simp] theorem State.setRxLen_rxLen (n : Nat) (s : State) : (s.setRxLen n).rxLen = BitVec.ofNat 8 n := rfl
@[simp] theorem State.setRxLen_crc (n : Nat) (s : State) : (s.setRxLen n).crc = s.crc := rfl
@[simp] theorem State.setRxLen_rsp (n : Nat) (s : State) : (s.setRxLen n).rsp = s.rsp := rfl
@[simp] theorem State.setRxLen_byteAt (n : Nat) (s : State) (o : Nat) : (s.setRxLen n).byteAt o = s.byteAt o := rfl
@[simp] theorem State.setRxLen_bufByte (n : Nat) (s : State) (b : Buf) (i : Nat) : (s.setRxLen n).bufByte b i = s.bufByte b i := rfl
@[simp] theorem State.setRxLen_bufSlice (n : Nat) (s : State) (b : Buf) (i k : Nat) : (s.setRxLen n).bufSlice b i k = s.bufSlice b i k := rfl

/-! ## `setFrameLen` -/

@[simp] theorem State.setFrameLen_params (n : Nat) (s : State) : (s.setFrameLen n).params = s.params := rfl
@[simp] theorem State.setFrameLen_turns (n : Nat) (s : State) : (s.setFrameLen n).turns = s.turns := rfl
@[simp] theorem State.setFrameLen_seq (n : Nat) (s : State) : (s.setFrameLen n).seq = s.seq := rfl
@[simp] theorem State.setFrameLen_pending (n : Nat) (s : State) : (s.setFrameLen n).pending = s.pending := rfl
@[simp] theorem State.setFrameLen_trace (n : Nat) (s : State) : (s.setFrameLen n).trace = s.trace := rfl
@[simp] theorem State.setFrameLen_hostLog (n : Nat) (s : State) : (s.setFrameLen n).hostLog = s.hostLog := rfl
@[simp] theorem State.setFrameLen_epoch (n : Nat) (s : State) : (s.setFrameLen n).epoch = s.epoch := rfl
@[simp] theorem State.setFrameLen_draws (n : Nat) (s : State) : (s.setFrameLen n).draws = s.draws := rfl
@[simp] theorem State.setFrameLen_mem (n : Nat) (s : State) : (s.setFrameLen n).mem = s.mem := rfl
@[simp] theorem State.setFrameLen_ie (n : Nat) (s : State) : (s.setFrameLen n).ie = s.ie := rfl
@[simp] theorem State.setFrameLen_retries (n : Nat) (s : State) : (s.setFrameLen n).retries = s.retries := rfl
@[simp] theorem State.setFrameLen_busy (n : Nat) (s : State) : (s.setFrameLen n).busy = s.busy := rfl
@[simp] theorem State.setFrameLen_done (n : Nat) (s : State) : (s.setFrameLen n).done = s.done := rfl
@[simp] theorem State.setFrameLen_ovr (n : Nat) (s : State) : (s.setFrameLen n).ovr = s.ovr := rfl
@[simp] theorem State.setFrameLen_tstate (n : Nat) (s : State) : (s.setFrameLen n).tstate = s.tstate := rfl
@[simp] theorem State.setFrameLen_phase (n : Nat) (s : State) : (s.setFrameLen n).phase = s.phase := rfl
@[simp] theorem State.setFrameLen_attempts (n : Nat) (s : State) : (s.setFrameLen n).attempts = s.attempts := rfl
@[simp] theorem State.setFrameLen_cmd (n : Nat) (s : State) : (s.setFrameLen n).cmd = s.cmd := rfl
@[simp] theorem State.setFrameLen_result (n : Nat) (s : State) : (s.setFrameLen n).result = s.result := rfl
@[simp] theorem State.setFrameLen_devAddr (n : Nat) (s : State) : (s.setFrameLen n).devAddr = s.devAddr := rfl
@[simp] theorem State.setFrameLen_waddr (n : Nat) (s : State) : (s.setFrameLen n).waddr = s.waddr := rfl
@[simp] theorem State.setFrameLen_ioaddr (n : Nat) (s : State) : (s.setFrameLen n).ioaddr = s.ioaddr := rfl
@[simp] theorem State.setFrameLen_opcode (n : Nat) (s : State) : (s.setFrameLen n).opcode = s.opcode := rfl
@[simp] theorem State.setFrameLen_mode (n : Nat) (s : State) : (s.setFrameLen n).mode = s.mode := rfl
@[simp] theorem State.setFrameLen_param1 (n : Nat) (s : State) : (s.setFrameLen n).param1 = s.param1 := rfl
@[simp] theorem State.setFrameLen_param2 (n : Nat) (s : State) : (s.setFrameLen n).param2 = s.param2 := rfl
@[simp] theorem State.setFrameLen_dlen (n : Nat) (s : State) : (s.setFrameLen n).dlen = s.dlen := rfl
@[simp] theorem State.setFrameLen_wrLen (n : Nat) (s : State) : (s.setFrameLen n).wrLen = s.wrLen := rfl
@[simp] theorem State.setFrameLen_rdLen (n : Nat) (s : State) : (s.setFrameLen n).rdLen = s.rdLen := rfl
@[simp] theorem State.setFrameLen_crcLen (n : Nat) (s : State) : (s.setFrameLen n).crcLen = s.crcLen := rfl
@[simp] theorem State.setFrameLen_respLen (n : Nat) (s : State) : (s.setFrameLen n).respLen = s.respLen := rfl
@[simp] theorem State.setFrameLen_frameLen (n : Nat) (s : State) : (s.setFrameLen n).frameLen = BitVec.ofNat 8 n := rfl
@[simp] theorem State.setFrameLen_rxLen (n : Nat) (s : State) : (s.setFrameLen n).rxLen = s.rxLen := rfl
@[simp] theorem State.setFrameLen_crc (n : Nat) (s : State) : (s.setFrameLen n).crc = s.crc := rfl
@[simp] theorem State.setFrameLen_rsp (n : Nat) (s : State) : (s.setFrameLen n).rsp = s.rsp := rfl
@[simp] theorem State.setFrameLen_byteAt (n : Nat) (s : State) (o : Nat) : (s.setFrameLen n).byteAt o = s.byteAt o := rfl
@[simp] theorem State.setFrameLen_bufByte (n : Nat) (s : State) (b : Buf) (i : Nat) : (s.setFrameLen n).bufByte b i = s.bufByte b i := rfl
@[simp] theorem State.setFrameLen_bufSlice (n : Nat) (s : State) (b : Buf) (i k : Nat) : (s.setFrameLen n).bufSlice b i k = s.bufSlice b i k := rfl

/-! ## `setAttempts` -/

@[simp] theorem State.setAttempts_params (n : Nat) (s : State) : (s.setAttempts n).params = s.params := rfl
@[simp] theorem State.setAttempts_turns (n : Nat) (s : State) : (s.setAttempts n).turns = s.turns := rfl
@[simp] theorem State.setAttempts_seq (n : Nat) (s : State) : (s.setAttempts n).seq = s.seq := rfl
@[simp] theorem State.setAttempts_pending (n : Nat) (s : State) : (s.setAttempts n).pending = s.pending := rfl
@[simp] theorem State.setAttempts_trace (n : Nat) (s : State) : (s.setAttempts n).trace = s.trace := rfl
@[simp] theorem State.setAttempts_hostLog (n : Nat) (s : State) : (s.setAttempts n).hostLog = s.hostLog := rfl
@[simp] theorem State.setAttempts_epoch (n : Nat) (s : State) : (s.setAttempts n).epoch = s.epoch := rfl
@[simp] theorem State.setAttempts_draws (n : Nat) (s : State) : (s.setAttempts n).draws = s.draws := rfl
@[simp] theorem State.setAttempts_mem (n : Nat) (s : State) : (s.setAttempts n).mem = s.mem := rfl
@[simp] theorem State.setAttempts_ie (n : Nat) (s : State) : (s.setAttempts n).ie = s.ie := rfl
@[simp] theorem State.setAttempts_retries (n : Nat) (s : State) : (s.setAttempts n).retries = s.retries := rfl
@[simp] theorem State.setAttempts_busy (n : Nat) (s : State) : (s.setAttempts n).busy = s.busy := rfl
@[simp] theorem State.setAttempts_done (n : Nat) (s : State) : (s.setAttempts n).done = s.done := rfl
@[simp] theorem State.setAttempts_ovr (n : Nat) (s : State) : (s.setAttempts n).ovr = s.ovr := rfl
@[simp] theorem State.setAttempts_tstate (n : Nat) (s : State) : (s.setAttempts n).tstate = s.tstate := rfl
@[simp] theorem State.setAttempts_phase (n : Nat) (s : State) : (s.setAttempts n).phase = s.phase := rfl
@[simp] theorem State.setAttempts_attempts (n : Nat) (s : State) : (s.setAttempts n).attempts = BitVec.ofNat 4 n := rfl
@[simp] theorem State.setAttempts_cmd (n : Nat) (s : State) : (s.setAttempts n).cmd = s.cmd := rfl
@[simp] theorem State.setAttempts_result (n : Nat) (s : State) : (s.setAttempts n).result = s.result := rfl
@[simp] theorem State.setAttempts_devAddr (n : Nat) (s : State) : (s.setAttempts n).devAddr = s.devAddr := rfl
@[simp] theorem State.setAttempts_waddr (n : Nat) (s : State) : (s.setAttempts n).waddr = s.waddr := rfl
@[simp] theorem State.setAttempts_ioaddr (n : Nat) (s : State) : (s.setAttempts n).ioaddr = s.ioaddr := rfl
@[simp] theorem State.setAttempts_opcode (n : Nat) (s : State) : (s.setAttempts n).opcode = s.opcode := rfl
@[simp] theorem State.setAttempts_mode (n : Nat) (s : State) : (s.setAttempts n).mode = s.mode := rfl
@[simp] theorem State.setAttempts_param1 (n : Nat) (s : State) : (s.setAttempts n).param1 = s.param1 := rfl
@[simp] theorem State.setAttempts_param2 (n : Nat) (s : State) : (s.setAttempts n).param2 = s.param2 := rfl
@[simp] theorem State.setAttempts_dlen (n : Nat) (s : State) : (s.setAttempts n).dlen = s.dlen := rfl
@[simp] theorem State.setAttempts_wrLen (n : Nat) (s : State) : (s.setAttempts n).wrLen = s.wrLen := rfl
@[simp] theorem State.setAttempts_rdLen (n : Nat) (s : State) : (s.setAttempts n).rdLen = s.rdLen := rfl
@[simp] theorem State.setAttempts_crcLen (n : Nat) (s : State) : (s.setAttempts n).crcLen = s.crcLen := rfl
@[simp] theorem State.setAttempts_respLen (n : Nat) (s : State) : (s.setAttempts n).respLen = s.respLen := rfl
@[simp] theorem State.setAttempts_frameLen (n : Nat) (s : State) : (s.setAttempts n).frameLen = s.frameLen := rfl
@[simp] theorem State.setAttempts_rxLen (n : Nat) (s : State) : (s.setAttempts n).rxLen = s.rxLen := rfl
@[simp] theorem State.setAttempts_crc (n : Nat) (s : State) : (s.setAttempts n).crc = s.crc := rfl
@[simp] theorem State.setAttempts_rsp (n : Nat) (s : State) : (s.setAttempts n).rsp = s.rsp := rfl
@[simp] theorem State.setAttempts_byteAt (n : Nat) (s : State) (o : Nat) : (s.setAttempts n).byteAt o = s.byteAt o := rfl
@[simp] theorem State.setAttempts_bufByte (n : Nat) (s : State) (b : Buf) (i : Nat) : (s.setAttempts n).bufByte b i = s.bufByte b i := rfl
@[simp] theorem State.setAttempts_bufSlice (n : Nat) (s : State) (b : Buf) (i k : Nat) : (s.setAttempts n).bufSlice b i k = s.bufSlice b i k := rfl

/-! ## `goto` -/

@[simp] theorem State.goto_params (p : Pos) (s : State) : (s.goto p).params = s.params := rfl
@[simp] theorem State.goto_turns (p : Pos) (s : State) : (s.goto p).turns = s.turns := rfl
@[simp] theorem State.goto_seq (p : Pos) (s : State) : (s.goto p).seq = s.seq.map fun q => { q with pos := p } := rfl
@[simp] theorem State.goto_pending (p : Pos) (s : State) : (s.goto p).pending = s.pending := rfl
@[simp] theorem State.goto_trace (p : Pos) (s : State) : (s.goto p).trace = s.trace := rfl
@[simp] theorem State.goto_hostLog (p : Pos) (s : State) : (s.goto p).hostLog = s.hostLog := rfl
@[simp] theorem State.goto_epoch (p : Pos) (s : State) : (s.goto p).epoch = s.epoch := rfl
@[simp] theorem State.goto_draws (p : Pos) (s : State) : (s.goto p).draws = s.draws := rfl
@[simp] theorem State.goto_mem (p : Pos) (s : State) : (s.goto p).mem = s.mem := rfl
@[simp] theorem State.goto_ie (p : Pos) (s : State) : (s.goto p).ie = s.ie := rfl
@[simp] theorem State.goto_retries (p : Pos) (s : State) : (s.goto p).retries = s.retries := rfl
@[simp] theorem State.goto_busy (p : Pos) (s : State) : (s.goto p).busy = s.busy := rfl
@[simp] theorem State.goto_done (p : Pos) (s : State) : (s.goto p).done = s.done := rfl
@[simp] theorem State.goto_ovr (p : Pos) (s : State) : (s.goto p).ovr = s.ovr := rfl
@[simp] theorem State.goto_tstate (p : Pos) (s : State) : (s.goto p).tstate = s.tstate := rfl
@[simp] theorem State.goto_phase (p : Pos) (s : State) : (s.goto p).phase = s.phase := rfl
@[simp] theorem State.goto_attempts (p : Pos) (s : State) : (s.goto p).attempts = s.attempts := rfl
@[simp] theorem State.goto_cmd (p : Pos) (s : State) : (s.goto p).cmd = s.cmd := rfl
@[simp] theorem State.goto_result (p : Pos) (s : State) : (s.goto p).result = s.result := rfl
@[simp] theorem State.goto_devAddr (p : Pos) (s : State) : (s.goto p).devAddr = s.devAddr := rfl
@[simp] theorem State.goto_waddr (p : Pos) (s : State) : (s.goto p).waddr = s.waddr := rfl
@[simp] theorem State.goto_ioaddr (p : Pos) (s : State) : (s.goto p).ioaddr = s.ioaddr := rfl
@[simp] theorem State.goto_opcode (p : Pos) (s : State) : (s.goto p).opcode = s.opcode := rfl
@[simp] theorem State.goto_mode (p : Pos) (s : State) : (s.goto p).mode = s.mode := rfl
@[simp] theorem State.goto_param1 (p : Pos) (s : State) : (s.goto p).param1 = s.param1 := rfl
@[simp] theorem State.goto_param2 (p : Pos) (s : State) : (s.goto p).param2 = s.param2 := rfl
@[simp] theorem State.goto_dlen (p : Pos) (s : State) : (s.goto p).dlen = s.dlen := rfl
@[simp] theorem State.goto_wrLen (p : Pos) (s : State) : (s.goto p).wrLen = s.wrLen := rfl
@[simp] theorem State.goto_rdLen (p : Pos) (s : State) : (s.goto p).rdLen = s.rdLen := rfl
@[simp] theorem State.goto_crcLen (p : Pos) (s : State) : (s.goto p).crcLen = s.crcLen := rfl
@[simp] theorem State.goto_respLen (p : Pos) (s : State) : (s.goto p).respLen = s.respLen := rfl
@[simp] theorem State.goto_frameLen (p : Pos) (s : State) : (s.goto p).frameLen = s.frameLen := rfl
@[simp] theorem State.goto_rxLen (p : Pos) (s : State) : (s.goto p).rxLen = s.rxLen := rfl
@[simp] theorem State.goto_crc (p : Pos) (s : State) : (s.goto p).crc = s.crc := rfl
@[simp] theorem State.goto_rsp (p : Pos) (s : State) : (s.goto p).rsp = s.rsp := rfl
@[simp] theorem State.goto_byteAt (p : Pos) (s : State) (o : Nat) : (s.goto p).byteAt o = s.byteAt o := rfl
@[simp] theorem State.goto_bufByte (p : Pos) (s : State) (b : Buf) (i : Nat) : (s.goto p).bufByte b i = s.bufByte b i := rfl
@[simp] theorem State.goto_bufSlice (p : Pos) (s : State) (b : Buf) (i k : Nat) : (s.goto p).bufSlice b i k = s.bufSlice b i k := rfl

/-! ## `begin` -/

@[simp] theorem State.begin_params (p : Pos) (s : State) : (s.begin p).params = s.params := rfl
@[simp] theorem State.begin_turns (p : Pos) (s : State) : (s.begin p).turns = s.turns := rfl
@[simp] theorem State.begin_seq (p : Pos) (s : State) : (s.begin p).seq = s.seq.map fun q => if q.pos = .accepted then { q with pos := p } else q := rfl
@[simp] theorem State.begin_pending (p : Pos) (s : State) : (s.begin p).pending = s.pending := rfl
@[simp] theorem State.begin_trace (p : Pos) (s : State) : (s.begin p).trace = s.trace := rfl
@[simp] theorem State.begin_hostLog (p : Pos) (s : State) : (s.begin p).hostLog = s.hostLog := rfl
@[simp] theorem State.begin_epoch (p : Pos) (s : State) : (s.begin p).epoch = s.epoch := rfl
@[simp] theorem State.begin_draws (p : Pos) (s : State) : (s.begin p).draws = s.draws := rfl
@[simp] theorem State.begin_mem (p : Pos) (s : State) : (s.begin p).mem = s.mem := rfl
@[simp] theorem State.begin_ie (p : Pos) (s : State) : (s.begin p).ie = s.ie := rfl
@[simp] theorem State.begin_retries (p : Pos) (s : State) : (s.begin p).retries = s.retries := rfl
@[simp] theorem State.begin_busy (p : Pos) (s : State) : (s.begin p).busy = s.busy := rfl
@[simp] theorem State.begin_done (p : Pos) (s : State) : (s.begin p).done = s.done := rfl
@[simp] theorem State.begin_ovr (p : Pos) (s : State) : (s.begin p).ovr = s.ovr := rfl
@[simp] theorem State.begin_tstate (p : Pos) (s : State) : (s.begin p).tstate = s.tstate := rfl
@[simp] theorem State.begin_phase (p : Pos) (s : State) : (s.begin p).phase = s.phase := rfl
@[simp] theorem State.begin_attempts (p : Pos) (s : State) : (s.begin p).attempts = s.attempts := rfl
@[simp] theorem State.begin_cmd (p : Pos) (s : State) : (s.begin p).cmd = s.cmd := rfl
@[simp] theorem State.begin_result (p : Pos) (s : State) : (s.begin p).result = s.result := rfl
@[simp] theorem State.begin_devAddr (p : Pos) (s : State) : (s.begin p).devAddr = s.devAddr := rfl
@[simp] theorem State.begin_waddr (p : Pos) (s : State) : (s.begin p).waddr = s.waddr := rfl
@[simp] theorem State.begin_ioaddr (p : Pos) (s : State) : (s.begin p).ioaddr = s.ioaddr := rfl
@[simp] theorem State.begin_opcode (p : Pos) (s : State) : (s.begin p).opcode = s.opcode := rfl
@[simp] theorem State.begin_mode (p : Pos) (s : State) : (s.begin p).mode = s.mode := rfl
@[simp] theorem State.begin_param1 (p : Pos) (s : State) : (s.begin p).param1 = s.param1 := rfl
@[simp] theorem State.begin_param2 (p : Pos) (s : State) : (s.begin p).param2 = s.param2 := rfl
@[simp] theorem State.begin_dlen (p : Pos) (s : State) : (s.begin p).dlen = s.dlen := rfl
@[simp] theorem State.begin_wrLen (p : Pos) (s : State) : (s.begin p).wrLen = s.wrLen := rfl
@[simp] theorem State.begin_rdLen (p : Pos) (s : State) : (s.begin p).rdLen = s.rdLen := rfl
@[simp] theorem State.begin_crcLen (p : Pos) (s : State) : (s.begin p).crcLen = s.crcLen := rfl
@[simp] theorem State.begin_respLen (p : Pos) (s : State) : (s.begin p).respLen = s.respLen := rfl
@[simp] theorem State.begin_frameLen (p : Pos) (s : State) : (s.begin p).frameLen = s.frameLen := rfl
@[simp] theorem State.begin_rxLen (p : Pos) (s : State) : (s.begin p).rxLen = s.rxLen := rfl
@[simp] theorem State.begin_crc (p : Pos) (s : State) : (s.begin p).crc = s.crc := rfl
@[simp] theorem State.begin_rsp (p : Pos) (s : State) : (s.begin p).rsp = s.rsp := rfl
@[simp] theorem State.begin_byteAt (p : Pos) (s : State) (o : Nat) : (s.begin p).byteAt o = s.byteAt o := rfl
@[simp] theorem State.begin_bufByte (p : Pos) (s : State) (b : Buf) (i : Nat) : (s.begin p).bufByte b i = s.bufByte b i := rfl
@[simp] theorem State.begin_bufSlice (p : Pos) (s : State) (b : Buf) (i k : Nat) : (s.begin p).bufSlice b i k = s.bufSlice b i k := rfl

/-! ## `await` -/

@[simp] theorem State.await_params (a : Action) (s : State) : (s.await a).params = s.params := rfl
@[simp] theorem State.await_turns (a : Action) (s : State) : (s.await a).turns = s.turns := rfl
@[simp] theorem State.await_seq (a : Action) (s : State) : (s.await a).seq = s.seq := rfl
@[simp] theorem State.await_pending (a : Action) (s : State) : (s.await a).pending = some a := rfl
@[simp] theorem State.await_trace (a : Action) (s : State) : (s.await a).trace = s.trace := rfl
@[simp] theorem State.await_hostLog (a : Action) (s : State) : (s.await a).hostLog = s.hostLog := rfl
@[simp] theorem State.await_epoch (a : Action) (s : State) : (s.await a).epoch = s.epoch := rfl
@[simp] theorem State.await_draws (a : Action) (s : State) : (s.await a).draws = s.draws := rfl
@[simp] theorem State.await_mem (a : Action) (s : State) : (s.await a).mem = s.mem := rfl
@[simp] theorem State.await_ie (a : Action) (s : State) : (s.await a).ie = s.ie := rfl
@[simp] theorem State.await_retries (a : Action) (s : State) : (s.await a).retries = s.retries := rfl
@[simp] theorem State.await_busy (a : Action) (s : State) : (s.await a).busy = s.busy := rfl
@[simp] theorem State.await_done (a : Action) (s : State) : (s.await a).done = s.done := rfl
@[simp] theorem State.await_ovr (a : Action) (s : State) : (s.await a).ovr = s.ovr := rfl
@[simp] theorem State.await_tstate (a : Action) (s : State) : (s.await a).tstate = s.tstate := rfl
@[simp] theorem State.await_phase (a : Action) (s : State) : (s.await a).phase = s.phase := rfl
@[simp] theorem State.await_attempts (a : Action) (s : State) : (s.await a).attempts = s.attempts := rfl
@[simp] theorem State.await_cmd (a : Action) (s : State) : (s.await a).cmd = s.cmd := rfl
@[simp] theorem State.await_result (a : Action) (s : State) : (s.await a).result = s.result := rfl
@[simp] theorem State.await_devAddr (a : Action) (s : State) : (s.await a).devAddr = s.devAddr := rfl
@[simp] theorem State.await_waddr (a : Action) (s : State) : (s.await a).waddr = s.waddr := rfl
@[simp] theorem State.await_ioaddr (a : Action) (s : State) : (s.await a).ioaddr = s.ioaddr := rfl
@[simp] theorem State.await_opcode (a : Action) (s : State) : (s.await a).opcode = s.opcode := rfl
@[simp] theorem State.await_mode (a : Action) (s : State) : (s.await a).mode = s.mode := rfl
@[simp] theorem State.await_param1 (a : Action) (s : State) : (s.await a).param1 = s.param1 := rfl
@[simp] theorem State.await_param2 (a : Action) (s : State) : (s.await a).param2 = s.param2 := rfl
@[simp] theorem State.await_dlen (a : Action) (s : State) : (s.await a).dlen = s.dlen := rfl
@[simp] theorem State.await_wrLen (a : Action) (s : State) : (s.await a).wrLen = s.wrLen := rfl
@[simp] theorem State.await_rdLen (a : Action) (s : State) : (s.await a).rdLen = s.rdLen := rfl
@[simp] theorem State.await_crcLen (a : Action) (s : State) : (s.await a).crcLen = s.crcLen := rfl
@[simp] theorem State.await_respLen (a : Action) (s : State) : (s.await a).respLen = s.respLen := rfl
@[simp] theorem State.await_frameLen (a : Action) (s : State) : (s.await a).frameLen = s.frameLen := rfl
@[simp] theorem State.await_rxLen (a : Action) (s : State) : (s.await a).rxLen = s.rxLen := rfl
@[simp] theorem State.await_crc (a : Action) (s : State) : (s.await a).crc = s.crc := rfl
@[simp] theorem State.await_rsp (a : Action) (s : State) : (s.await a).rsp = s.rsp := rfl
@[simp] theorem State.await_byteAt (a : Action) (s : State) (o : Nat) : (s.await a).byteAt o = s.byteAt o := rfl
@[simp] theorem State.await_bufByte (a : Action) (s : State) (b : Buf) (i : Nat) : (s.await a).bufByte b i = s.bufByte b i := rfl
@[simp] theorem State.await_bufSlice (a : Action) (s : State) (b : Buf) (i k : Nat) : (s.await a).bufSlice b i k = s.bufSlice b i k := rfl

/-! ## `answered` -/

@[simp] theorem State.answered_params (a : Action) (r : BusReply) (s : State) : (s.answered a r).params = s.params := rfl
@[simp] theorem State.answered_turns (a : Action) (r : BusReply) (s : State) : (s.answered a r).turns = s.turns := rfl
@[simp] theorem State.answered_seq (a : Action) (r : BusReply) (s : State) : (s.answered a r).seq = s.seq := rfl
@[simp] theorem State.answered_pending (a : Action) (r : BusReply) (s : State) : (s.answered a r).pending = none := rfl
@[simp] theorem State.answered_trace (a : Action) (r : BusReply) (s : State) : (s.answered a r).trace = s.trace ++ [a.event r] := rfl
@[simp] theorem State.answered_hostLog (a : Action) (r : BusReply) (s : State) : (s.answered a r).hostLog = s.hostLog := rfl
@[simp] theorem State.answered_epoch (a : Action) (r : BusReply) (s : State) : (s.answered a r).epoch = s.epoch := rfl
@[simp] theorem State.answered_draws (a : Action) (r : BusReply) (s : State) : (s.answered a r).draws = s.draws := rfl
@[simp] theorem State.answered_mem (a : Action) (r : BusReply) (s : State) : (s.answered a r).mem = s.mem := rfl
@[simp] theorem State.answered_ie (a : Action) (r : BusReply) (s : State) : (s.answered a r).ie = s.ie := rfl
@[simp] theorem State.answered_retries (a : Action) (r : BusReply) (s : State) : (s.answered a r).retries = s.retries := rfl
@[simp] theorem State.answered_busy (a : Action) (r : BusReply) (s : State) : (s.answered a r).busy = s.busy := rfl
@[simp] theorem State.answered_done (a : Action) (r : BusReply) (s : State) : (s.answered a r).done = s.done := rfl
@[simp] theorem State.answered_ovr (a : Action) (r : BusReply) (s : State) : (s.answered a r).ovr = s.ovr := rfl
@[simp] theorem State.answered_tstate (a : Action) (r : BusReply) (s : State) : (s.answered a r).tstate = s.tstate := rfl
@[simp] theorem State.answered_phase (a : Action) (r : BusReply) (s : State) : (s.answered a r).phase = s.phase := rfl
@[simp] theorem State.answered_attempts (a : Action) (r : BusReply) (s : State) : (s.answered a r).attempts = s.attempts := rfl
@[simp] theorem State.answered_cmd (a : Action) (r : BusReply) (s : State) : (s.answered a r).cmd = s.cmd := rfl
@[simp] theorem State.answered_result (a : Action) (r : BusReply) (s : State) : (s.answered a r).result = s.result := rfl
@[simp] theorem State.answered_devAddr (a : Action) (r : BusReply) (s : State) : (s.answered a r).devAddr = s.devAddr := rfl
@[simp] theorem State.answered_waddr (a : Action) (r : BusReply) (s : State) : (s.answered a r).waddr = s.waddr := rfl
@[simp] theorem State.answered_ioaddr (a : Action) (r : BusReply) (s : State) : (s.answered a r).ioaddr = s.ioaddr := rfl
@[simp] theorem State.answered_opcode (a : Action) (r : BusReply) (s : State) : (s.answered a r).opcode = s.opcode := rfl
@[simp] theorem State.answered_mode (a : Action) (r : BusReply) (s : State) : (s.answered a r).mode = s.mode := rfl
@[simp] theorem State.answered_param1 (a : Action) (r : BusReply) (s : State) : (s.answered a r).param1 = s.param1 := rfl
@[simp] theorem State.answered_param2 (a : Action) (r : BusReply) (s : State) : (s.answered a r).param2 = s.param2 := rfl
@[simp] theorem State.answered_dlen (a : Action) (r : BusReply) (s : State) : (s.answered a r).dlen = s.dlen := rfl
@[simp] theorem State.answered_wrLen (a : Action) (r : BusReply) (s : State) : (s.answered a r).wrLen = s.wrLen := rfl
@[simp] theorem State.answered_rdLen (a : Action) (r : BusReply) (s : State) : (s.answered a r).rdLen = s.rdLen := rfl
@[simp] theorem State.answered_crcLen (a : Action) (r : BusReply) (s : State) : (s.answered a r).crcLen = s.crcLen := rfl
@[simp] theorem State.answered_respLen (a : Action) (r : BusReply) (s : State) : (s.answered a r).respLen = s.respLen := rfl
@[simp] theorem State.answered_frameLen (a : Action) (r : BusReply) (s : State) : (s.answered a r).frameLen = s.frameLen := rfl
@[simp] theorem State.answered_rxLen (a : Action) (r : BusReply) (s : State) : (s.answered a r).rxLen = s.rxLen := rfl
@[simp] theorem State.answered_crc (a : Action) (r : BusReply) (s : State) : (s.answered a r).crc = s.crc := rfl
@[simp] theorem State.answered_rsp (a : Action) (r : BusReply) (s : State) : (s.answered a r).rsp = s.rsp := rfl
@[simp] theorem State.answered_byteAt (a : Action) (r : BusReply) (s : State) (o : Nat) : (s.answered a r).byteAt o = s.byteAt o := rfl
@[simp] theorem State.answered_bufByte (a : Action) (r : BusReply) (s : State) (b : Buf) (i : Nat) : (s.answered a r).bufByte b i = s.bufByte b i := rfl
@[simp] theorem State.answered_bufSlice (a : Action) (r : BusReply) (s : State) (b : Buf) (i k : Nat) : (s.answered a r).bufSlice b i k = s.bufSlice b i k := rfl

/-! ## `recordWait` -/

@[simp] theorem State.recordWait_params (n : Nat) (s : State) : (s.recordWait n).params = s.params := rfl
@[simp] theorem State.recordWait_turns (n : Nat) (s : State) : (s.recordWait n).turns = s.turns := rfl
@[simp] theorem State.recordWait_seq (n : Nat) (s : State) : (s.recordWait n).seq = s.seq := rfl
@[simp] theorem State.recordWait_pending (n : Nat) (s : State) : (s.recordWait n).pending = s.pending := rfl
@[simp] theorem State.recordWait_trace (n : Nat) (s : State) : (s.recordWait n).trace = s.trace ++ [.wait n] := rfl
@[simp] theorem State.recordWait_hostLog (n : Nat) (s : State) : (s.recordWait n).hostLog = s.hostLog := rfl
@[simp] theorem State.recordWait_epoch (n : Nat) (s : State) : (s.recordWait n).epoch = s.epoch := rfl
@[simp] theorem State.recordWait_draws (n : Nat) (s : State) : (s.recordWait n).draws = s.draws := rfl
@[simp] theorem State.recordWait_mem (n : Nat) (s : State) : (s.recordWait n).mem = s.mem := rfl
@[simp] theorem State.recordWait_ie (n : Nat) (s : State) : (s.recordWait n).ie = s.ie := rfl
@[simp] theorem State.recordWait_retries (n : Nat) (s : State) : (s.recordWait n).retries = s.retries := rfl
@[simp] theorem State.recordWait_busy (n : Nat) (s : State) : (s.recordWait n).busy = s.busy := rfl
@[simp] theorem State.recordWait_done (n : Nat) (s : State) : (s.recordWait n).done = s.done := rfl
@[simp] theorem State.recordWait_ovr (n : Nat) (s : State) : (s.recordWait n).ovr = s.ovr := rfl
@[simp] theorem State.recordWait_tstate (n : Nat) (s : State) : (s.recordWait n).tstate = s.tstate := rfl
@[simp] theorem State.recordWait_phase (n : Nat) (s : State) : (s.recordWait n).phase = s.phase := rfl
@[simp] theorem State.recordWait_attempts (n : Nat) (s : State) : (s.recordWait n).attempts = s.attempts := rfl
@[simp] theorem State.recordWait_cmd (n : Nat) (s : State) : (s.recordWait n).cmd = s.cmd := rfl
@[simp] theorem State.recordWait_result (n : Nat) (s : State) : (s.recordWait n).result = s.result := rfl
@[simp] theorem State.recordWait_devAddr (n : Nat) (s : State) : (s.recordWait n).devAddr = s.devAddr := rfl
@[simp] theorem State.recordWait_waddr (n : Nat) (s : State) : (s.recordWait n).waddr = s.waddr := rfl
@[simp] theorem State.recordWait_ioaddr (n : Nat) (s : State) : (s.recordWait n).ioaddr = s.ioaddr := rfl
@[simp] theorem State.recordWait_opcode (n : Nat) (s : State) : (s.recordWait n).opcode = s.opcode := rfl
@[simp] theorem State.recordWait_mode (n : Nat) (s : State) : (s.recordWait n).mode = s.mode := rfl
@[simp] theorem State.recordWait_param1 (n : Nat) (s : State) : (s.recordWait n).param1 = s.param1 := rfl
@[simp] theorem State.recordWait_param2 (n : Nat) (s : State) : (s.recordWait n).param2 = s.param2 := rfl
@[simp] theorem State.recordWait_dlen (n : Nat) (s : State) : (s.recordWait n).dlen = s.dlen := rfl
@[simp] theorem State.recordWait_wrLen (n : Nat) (s : State) : (s.recordWait n).wrLen = s.wrLen := rfl
@[simp] theorem State.recordWait_rdLen (n : Nat) (s : State) : (s.recordWait n).rdLen = s.rdLen := rfl
@[simp] theorem State.recordWait_crcLen (n : Nat) (s : State) : (s.recordWait n).crcLen = s.crcLen := rfl
@[simp] theorem State.recordWait_respLen (n : Nat) (s : State) : (s.recordWait n).respLen = s.respLen := rfl
@[simp] theorem State.recordWait_frameLen (n : Nat) (s : State) : (s.recordWait n).frameLen = s.frameLen := rfl
@[simp] theorem State.recordWait_rxLen (n : Nat) (s : State) : (s.recordWait n).rxLen = s.rxLen := rfl
@[simp] theorem State.recordWait_crc (n : Nat) (s : State) : (s.recordWait n).crc = s.crc := rfl
@[simp] theorem State.recordWait_rsp (n : Nat) (s : State) : (s.recordWait n).rsp = s.rsp := rfl
@[simp] theorem State.recordWait_byteAt (n : Nat) (s : State) (o : Nat) : (s.recordWait n).byteAt o = s.byteAt o := rfl
@[simp] theorem State.recordWait_bufByte (n : Nat) (s : State) (b : Buf) (i : Nat) : (s.recordWait n).bufByte b i = s.bufByte b i := rfl
@[simp] theorem State.recordWait_bufSlice (n : Nat) (s : State) (b : Buf) (i k : Nat) : (s.recordWait n).bufSlice b i k = s.bufSlice b i k := rfl

/-! ## `accept` -/

@[simp] theorem State.accept_params (w : Word) (s : State) : (s.accept w).params = s.params := rfl
@[simp] theorem State.accept_turns (w : Word) (s : State) : (s.accept w).turns = s.turns := rfl
@[simp] theorem State.accept_seq (w : Word) (s : State) : (s.accept w).seq = some { word := w, retries := s.retries, pos := .accepted } := rfl
@[simp] theorem State.accept_pending (w : Word) (s : State) : (s.accept w).pending = s.pending := rfl
@[simp] theorem State.accept_trace (w : Word) (s : State) : (s.accept w).trace = s.trace := rfl
@[simp] theorem State.accept_hostLog (w : Word) (s : State) : (s.accept w).hostLog = s.hostLog := rfl
@[simp] theorem State.accept_epoch (w : Word) (s : State) : (s.accept w).epoch = s.epoch := rfl
@[simp] theorem State.accept_draws (w : Word) (s : State) : (s.accept w).draws = s.draws := rfl
@[simp] theorem State.accept_mem (w : Word) (s : State) : (s.accept w).mem = s.mem := rfl
@[simp] theorem State.accept_ie (w : Word) (s : State) : (s.accept w).ie = s.ie := rfl
@[simp] theorem State.accept_retries (w : Word) (s : State) : (s.accept w).retries = s.retries := rfl
@[simp] theorem State.accept_busy (w : Word) (s : State) : (s.accept w).busy = true := rfl
@[simp] theorem State.accept_done (w : Word) (s : State) : (s.accept w).done = false := rfl
@[simp] theorem State.accept_ovr (w : Word) (s : State) : (s.accept w).ovr = s.ovr := rfl
@[simp] theorem State.accept_tstate (w : Word) (s : State) : (s.accept w).tstate = s.tstate := rfl
@[simp] theorem State.accept_phase (w : Word) (s : State) : (s.accept w).phase = .check := rfl
@[simp] theorem State.accept_attempts (w : Word) (s : State) : (s.accept w).attempts = 0#4 := rfl
@[simp] theorem State.accept_cmd (w : Word) (s : State) : (s.accept w).cmd = w := rfl
@[simp] theorem State.accept_result (w : Word) (s : State) : (s.accept w).result = s.result := rfl
@[simp] theorem State.accept_devAddr (w : Word) (s : State) : (s.accept w).devAddr = s.devAddr := rfl
@[simp] theorem State.accept_waddr (w : Word) (s : State) : (s.accept w).waddr = s.waddr := rfl
@[simp] theorem State.accept_ioaddr (w : Word) (s : State) : (s.accept w).ioaddr = s.ioaddr := rfl
@[simp] theorem State.accept_opcode (w : Word) (s : State) : (s.accept w).opcode = s.opcode := rfl
@[simp] theorem State.accept_mode (w : Word) (s : State) : (s.accept w).mode = s.mode := rfl
@[simp] theorem State.accept_param1 (w : Word) (s : State) : (s.accept w).param1 = s.param1 := rfl
@[simp] theorem State.accept_param2 (w : Word) (s : State) : (s.accept w).param2 = s.param2 := rfl
@[simp] theorem State.accept_dlen (w : Word) (s : State) : (s.accept w).dlen = s.dlen := rfl
@[simp] theorem State.accept_wrLen (w : Word) (s : State) : (s.accept w).wrLen = s.wrLen := rfl
@[simp] theorem State.accept_rdLen (w : Word) (s : State) : (s.accept w).rdLen = s.rdLen := rfl
@[simp] theorem State.accept_crcLen (w : Word) (s : State) : (s.accept w).crcLen = s.crcLen := rfl
@[simp] theorem State.accept_respLen (w : Word) (s : State) : (s.accept w).respLen = s.respLen := rfl
@[simp] theorem State.accept_frameLen (w : Word) (s : State) : (s.accept w).frameLen = s.frameLen := rfl
@[simp] theorem State.accept_rxLen (w : Word) (s : State) : (s.accept w).rxLen = s.rxLen := rfl
@[simp] theorem State.accept_crc (w : Word) (s : State) : (s.accept w).crc = s.crc := rfl
@[simp] theorem State.accept_rsp (w : Word) (s : State) : (s.accept w).rsp = s.rsp := rfl
@[simp] theorem State.accept_byteAt (w : Word) (s : State) (o : Nat) : (s.accept w).byteAt o = s.byteAt o := rfl
@[simp] theorem State.accept_bufByte (w : Word) (s : State) (b : Buf) (i : Nat) : (s.accept w).bufByte b i = s.bufByte b i := rfl
@[simp] theorem State.accept_bufSlice (w : Word) (s : State) (b : Buf) (i k : Nat) : (s.accept w).bufSlice b i k = s.bufSlice b i k := rfl

/-! ## `complete` -/

@[simp] theorem State.complete_params (c : ResultCode) (s : State) : (s.complete c).params = s.params := rfl
@[simp] theorem State.complete_turns (c : ResultCode) (s : State) : (s.complete c).turns = s.turns := rfl
@[simp] theorem State.complete_seq (c : ResultCode) (s : State) : (s.complete c).seq = none := rfl
@[simp] theorem State.complete_pending (c : ResultCode) (s : State) : (s.complete c).pending = s.pending := rfl
@[simp] theorem State.complete_trace (c : ResultCode) (s : State) : (s.complete c).trace = s.trace := rfl
@[simp] theorem State.complete_hostLog (c : ResultCode) (s : State) : (s.complete c).hostLog = s.hostLog := rfl
@[simp] theorem State.complete_epoch (c : ResultCode) (s : State) : (s.complete c).epoch = s.epoch := rfl
@[simp] theorem State.complete_draws (c : ResultCode) (s : State) : (s.complete c).draws = s.draws := rfl
@[simp] theorem State.complete_mem (c : ResultCode) (s : State) : (s.complete c).mem = s.mem := rfl
@[simp] theorem State.complete_ie (c : ResultCode) (s : State) : (s.complete c).ie = s.ie := rfl
@[simp] theorem State.complete_retries (c : ResultCode) (s : State) : (s.complete c).retries = s.retries := rfl
@[simp] theorem State.complete_busy (c : ResultCode) (s : State) : (s.complete c).busy = false := rfl
@[simp] theorem State.complete_done (c : ResultCode) (s : State) : (s.complete c).done = true := rfl
@[simp] theorem State.complete_ovr (c : ResultCode) (s : State) : (s.complete c).ovr = s.ovr := rfl
@[simp] theorem State.complete_tstate (c : ResultCode) (s : State) : (s.complete c).tstate = s.tstate := rfl
@[simp] theorem State.complete_phase (c : ResultCode) (s : State) : (s.complete c).phase = .idle := rfl
@[simp] theorem State.complete_attempts (c : ResultCode) (s : State) : (s.complete c).attempts = s.attempts := rfl
@[simp] theorem State.complete_cmd (c : ResultCode) (s : State) : (s.complete c).cmd = s.cmd := rfl
@[simp] theorem State.complete_result (c : ResultCode) (s : State) : (s.complete c).result = c := rfl
@[simp] theorem State.complete_devAddr (c : ResultCode) (s : State) : (s.complete c).devAddr = s.devAddr := rfl
@[simp] theorem State.complete_waddr (c : ResultCode) (s : State) : (s.complete c).waddr = s.waddr := rfl
@[simp] theorem State.complete_ioaddr (c : ResultCode) (s : State) : (s.complete c).ioaddr = s.ioaddr := rfl
@[simp] theorem State.complete_opcode (c : ResultCode) (s : State) : (s.complete c).opcode = s.opcode := rfl
@[simp] theorem State.complete_mode (c : ResultCode) (s : State) : (s.complete c).mode = s.mode := rfl
@[simp] theorem State.complete_param1 (c : ResultCode) (s : State) : (s.complete c).param1 = s.param1 := rfl
@[simp] theorem State.complete_param2 (c : ResultCode) (s : State) : (s.complete c).param2 = s.param2 := rfl
@[simp] theorem State.complete_dlen (c : ResultCode) (s : State) : (s.complete c).dlen = s.dlen := rfl
@[simp] theorem State.complete_wrLen (c : ResultCode) (s : State) : (s.complete c).wrLen = s.wrLen := rfl
@[simp] theorem State.complete_rdLen (c : ResultCode) (s : State) : (s.complete c).rdLen = s.rdLen := rfl
@[simp] theorem State.complete_crcLen (c : ResultCode) (s : State) : (s.complete c).crcLen = s.crcLen := rfl
@[simp] theorem State.complete_respLen (c : ResultCode) (s : State) : (s.complete c).respLen = s.respLen := rfl
@[simp] theorem State.complete_frameLen (c : ResultCode) (s : State) : (s.complete c).frameLen = s.frameLen := rfl
@[simp] theorem State.complete_rxLen (c : ResultCode) (s : State) : (s.complete c).rxLen = s.rxLen := rfl
@[simp] theorem State.complete_crc (c : ResultCode) (s : State) : (s.complete c).crc = s.crc := rfl
@[simp] theorem State.complete_rsp (c : ResultCode) (s : State) : (s.complete c).rsp = s.rsp := rfl
@[simp] theorem State.complete_byteAt (c : ResultCode) (s : State) (o : Nat) : (s.complete c).byteAt o = s.byteAt o := rfl
@[simp] theorem State.complete_bufByte (c : ResultCode) (s : State) (b : Buf) (i : Nat) : (s.complete c).bufByte b i = s.bufByte b i := rfl
@[simp] theorem State.complete_bufSlice (c : ResultCode) (s : State) (b : Buf) (i k : Nat) : (s.complete c).bufSlice b i k = s.bufSlice b i k := rfl

/-! ## `respond` -/

@[simp] theorem State.respond_params (r : Response) (s : State) : (s.respond r).params = s.params := rfl
@[simp] theorem State.respond_turns (r : Response) (s : State) : (s.respond r).turns = s.turns := rfl
@[simp] theorem State.respond_seq (r : Response) (s : State) : (s.respond r).seq = s.seq := rfl
@[simp] theorem State.respond_pending (r : Response) (s : State) : (s.respond r).pending = s.pending := rfl
@[simp] theorem State.respond_trace (r : Response) (s : State) : (s.respond r).trace = s.trace := rfl
@[simp] theorem State.respond_hostLog (r : Response) (s : State) : (s.respond r).hostLog = s.hostLog ++ [r] := rfl
@[simp] theorem State.respond_epoch (r : Response) (s : State) : (s.respond r).epoch = s.epoch := rfl
@[simp] theorem State.respond_draws (r : Response) (s : State) : (s.respond r).draws = s.draws := rfl
@[simp] theorem State.respond_mem (r : Response) (s : State) : (s.respond r).mem = s.mem := rfl
@[simp] theorem State.respond_ie (r : Response) (s : State) : (s.respond r).ie = s.ie := rfl
@[simp] theorem State.respond_retries (r : Response) (s : State) : (s.respond r).retries = s.retries := rfl
@[simp] theorem State.respond_busy (r : Response) (s : State) : (s.respond r).busy = s.busy := rfl
@[simp] theorem State.respond_done (r : Response) (s : State) : (s.respond r).done = s.done := rfl
@[simp] theorem State.respond_ovr (r : Response) (s : State) : (s.respond r).ovr = s.ovr := rfl
@[simp] theorem State.respond_tstate (r : Response) (s : State) : (s.respond r).tstate = s.tstate := rfl
@[simp] theorem State.respond_phase (r : Response) (s : State) : (s.respond r).phase = s.phase := rfl
@[simp] theorem State.respond_attempts (r : Response) (s : State) : (s.respond r).attempts = s.attempts := rfl
@[simp] theorem State.respond_cmd (r : Response) (s : State) : (s.respond r).cmd = s.cmd := rfl
@[simp] theorem State.respond_result (r : Response) (s : State) : (s.respond r).result = s.result := rfl
@[simp] theorem State.respond_devAddr (r : Response) (s : State) : (s.respond r).devAddr = s.devAddr := rfl
@[simp] theorem State.respond_waddr (r : Response) (s : State) : (s.respond r).waddr = s.waddr := rfl
@[simp] theorem State.respond_ioaddr (r : Response) (s : State) : (s.respond r).ioaddr = s.ioaddr := rfl
@[simp] theorem State.respond_opcode (r : Response) (s : State) : (s.respond r).opcode = s.opcode := rfl
@[simp] theorem State.respond_mode (r : Response) (s : State) : (s.respond r).mode = s.mode := rfl
@[simp] theorem State.respond_param1 (r : Response) (s : State) : (s.respond r).param1 = s.param1 := rfl
@[simp] theorem State.respond_param2 (r : Response) (s : State) : (s.respond r).param2 = s.param2 := rfl
@[simp] theorem State.respond_dlen (r : Response) (s : State) : (s.respond r).dlen = s.dlen := rfl
@[simp] theorem State.respond_wrLen (r : Response) (s : State) : (s.respond r).wrLen = s.wrLen := rfl
@[simp] theorem State.respond_rdLen (r : Response) (s : State) : (s.respond r).rdLen = s.rdLen := rfl
@[simp] theorem State.respond_crcLen (r : Response) (s : State) : (s.respond r).crcLen = s.crcLen := rfl
@[simp] theorem State.respond_respLen (r : Response) (s : State) : (s.respond r).respLen = s.respLen := rfl
@[simp] theorem State.respond_frameLen (r : Response) (s : State) : (s.respond r).frameLen = s.frameLen := rfl
@[simp] theorem State.respond_rxLen (r : Response) (s : State) : (s.respond r).rxLen = s.rxLen := rfl
@[simp] theorem State.respond_crc (r : Response) (s : State) : (s.respond r).crc = s.crc := rfl
@[simp] theorem State.respond_rsp (r : Response) (s : State) : (s.respond r).rsp = s.rsp := rfl
@[simp] theorem State.respond_byteAt (r : Response) (s : State) (o : Nat) : (s.respond r).byteAt o = s.byteAt o := rfl
@[simp] theorem State.respond_bufByte (r : Response) (s : State) (b : Buf) (i : Nat) : (s.respond r).bufByte b i = s.bufByte b i := rfl
@[simp] theorem State.respond_bufSlice (r : Response) (s : State) (b : Buf) (i k : Nat) : (s.respond r).bufSlice b i k = s.bufSlice b i k := rfl

/-! ## `writeCtrl` -/

@[simp] theorem State.writeCtrl_params (v : Word) (s : State) : (s.writeCtrl v).params = s.params := rfl
@[simp] theorem State.writeCtrl_turns (v : Word) (s : State) : (s.writeCtrl v).turns = s.turns := rfl
@[simp] theorem State.writeCtrl_seq (v : Word) (s : State) : (s.writeCtrl v).seq = s.seq := rfl
@[simp] theorem State.writeCtrl_pending (v : Word) (s : State) : (s.writeCtrl v).pending = s.pending := rfl
@[simp] theorem State.writeCtrl_trace (v : Word) (s : State) : (s.writeCtrl v).trace = s.trace := rfl
@[simp] theorem State.writeCtrl_hostLog (v : Word) (s : State) : (s.writeCtrl v).hostLog = s.hostLog := rfl
@[simp] theorem State.writeCtrl_epoch (v : Word) (s : State) : (s.writeCtrl v).epoch = s.epoch := rfl
@[simp] theorem State.writeCtrl_draws (v : Word) (s : State) : (s.writeCtrl v).draws = s.draws := rfl
@[simp] theorem State.writeCtrl_mem (v : Word) (s : State) : (s.writeCtrl v).mem = s.mem := rfl
@[simp] theorem State.writeCtrl_ie (v : Word) (s : State) : (s.writeCtrl v).ie = v.getLsbD 0 := rfl
@[simp] theorem State.writeCtrl_retries (v : Word) (s : State) : (s.writeCtrl v).retries = v.extractLsb' 4 3 := rfl
@[simp] theorem State.writeCtrl_busy (v : Word) (s : State) : (s.writeCtrl v).busy = s.busy := rfl
@[simp] theorem State.writeCtrl_done (v : Word) (s : State) : (s.writeCtrl v).done = s.done := rfl
@[simp] theorem State.writeCtrl_ovr (v : Word) (s : State) : (s.writeCtrl v).ovr = s.ovr := rfl
@[simp] theorem State.writeCtrl_tstate (v : Word) (s : State) : (s.writeCtrl v).tstate = s.tstate := rfl
@[simp] theorem State.writeCtrl_phase (v : Word) (s : State) : (s.writeCtrl v).phase = s.phase := rfl
@[simp] theorem State.writeCtrl_attempts (v : Word) (s : State) : (s.writeCtrl v).attempts = s.attempts := rfl
@[simp] theorem State.writeCtrl_cmd (v : Word) (s : State) : (s.writeCtrl v).cmd = s.cmd := rfl
@[simp] theorem State.writeCtrl_result (v : Word) (s : State) : (s.writeCtrl v).result = s.result := rfl
@[simp] theorem State.writeCtrl_devAddr (v : Word) (s : State) : (s.writeCtrl v).devAddr = s.devAddr := rfl
@[simp] theorem State.writeCtrl_waddr (v : Word) (s : State) : (s.writeCtrl v).waddr = s.waddr := rfl
@[simp] theorem State.writeCtrl_ioaddr (v : Word) (s : State) : (s.writeCtrl v).ioaddr = s.ioaddr := rfl
@[simp] theorem State.writeCtrl_opcode (v : Word) (s : State) : (s.writeCtrl v).opcode = s.opcode := rfl
@[simp] theorem State.writeCtrl_mode (v : Word) (s : State) : (s.writeCtrl v).mode = s.mode := rfl
@[simp] theorem State.writeCtrl_param1 (v : Word) (s : State) : (s.writeCtrl v).param1 = s.param1 := rfl
@[simp] theorem State.writeCtrl_param2 (v : Word) (s : State) : (s.writeCtrl v).param2 = s.param2 := rfl
@[simp] theorem State.writeCtrl_dlen (v : Word) (s : State) : (s.writeCtrl v).dlen = s.dlen := rfl
@[simp] theorem State.writeCtrl_wrLen (v : Word) (s : State) : (s.writeCtrl v).wrLen = s.wrLen := rfl
@[simp] theorem State.writeCtrl_rdLen (v : Word) (s : State) : (s.writeCtrl v).rdLen = s.rdLen := rfl
@[simp] theorem State.writeCtrl_crcLen (v : Word) (s : State) : (s.writeCtrl v).crcLen = s.crcLen := rfl
@[simp] theorem State.writeCtrl_respLen (v : Word) (s : State) : (s.writeCtrl v).respLen = s.respLen := rfl
@[simp] theorem State.writeCtrl_frameLen (v : Word) (s : State) : (s.writeCtrl v).frameLen = s.frameLen := rfl
@[simp] theorem State.writeCtrl_rxLen (v : Word) (s : State) : (s.writeCtrl v).rxLen = s.rxLen := rfl
@[simp] theorem State.writeCtrl_crc (v : Word) (s : State) : (s.writeCtrl v).crc = s.crc := rfl
@[simp] theorem State.writeCtrl_rsp (v : Word) (s : State) : (s.writeCtrl v).rsp = s.rsp := rfl
@[simp] theorem State.writeCtrl_byteAt (v : Word) (s : State) (o : Nat) : (s.writeCtrl v).byteAt o = s.byteAt o := rfl
@[simp] theorem State.writeCtrl_bufByte (v : Word) (s : State) (b : Buf) (i : Nat) : (s.writeCtrl v).bufByte b i = s.bufByte b i := rfl
@[simp] theorem State.writeCtrl_bufSlice (v : Word) (s : State) (b : Buf) (i k : Nat) : (s.writeCtrl v).bufSlice b i k = s.bufSlice b i k := rfl

/-! ## `writeStatus` -/

@[simp] theorem State.writeStatus_params (v : Word) (s : State) : (s.writeStatus v).params = s.params := rfl
@[simp] theorem State.writeStatus_turns (v : Word) (s : State) : (s.writeStatus v).turns = s.turns := rfl
@[simp] theorem State.writeStatus_seq (v : Word) (s : State) : (s.writeStatus v).seq = s.seq := rfl
@[simp] theorem State.writeStatus_pending (v : Word) (s : State) : (s.writeStatus v).pending = s.pending := rfl
@[simp] theorem State.writeStatus_trace (v : Word) (s : State) : (s.writeStatus v).trace = s.trace := rfl
@[simp] theorem State.writeStatus_hostLog (v : Word) (s : State) : (s.writeStatus v).hostLog = s.hostLog := rfl
@[simp] theorem State.writeStatus_epoch (v : Word) (s : State) : (s.writeStatus v).epoch = s.epoch := rfl
@[simp] theorem State.writeStatus_draws (v : Word) (s : State) : (s.writeStatus v).draws = s.draws := rfl
@[simp] theorem State.writeStatus_mem (v : Word) (s : State) : (s.writeStatus v).mem = s.mem := rfl
@[simp] theorem State.writeStatus_ie (v : Word) (s : State) : (s.writeStatus v).ie = s.ie := rfl
@[simp] theorem State.writeStatus_retries (v : Word) (s : State) : (s.writeStatus v).retries = s.retries := rfl
@[simp] theorem State.writeStatus_busy (v : Word) (s : State) : (s.writeStatus v).busy = s.busy := rfl
@[simp] theorem State.writeStatus_done (v : Word) (s : State) : (s.writeStatus v).done = (s.done && !v.getLsbD 1) := rfl
@[simp] theorem State.writeStatus_ovr (v : Word) (s : State) : (s.writeStatus v).ovr = (s.ovr && !v.getLsbD 2) := rfl
@[simp] theorem State.writeStatus_tstate (v : Word) (s : State) : (s.writeStatus v).tstate = s.tstate := rfl
@[simp] theorem State.writeStatus_phase (v : Word) (s : State) : (s.writeStatus v).phase = s.phase := rfl
@[simp] theorem State.writeStatus_attempts (v : Word) (s : State) : (s.writeStatus v).attempts = s.attempts := rfl
@[simp] theorem State.writeStatus_cmd (v : Word) (s : State) : (s.writeStatus v).cmd = s.cmd := rfl
@[simp] theorem State.writeStatus_result (v : Word) (s : State) : (s.writeStatus v).result = s.result := rfl
@[simp] theorem State.writeStatus_devAddr (v : Word) (s : State) : (s.writeStatus v).devAddr = s.devAddr := rfl
@[simp] theorem State.writeStatus_waddr (v : Word) (s : State) : (s.writeStatus v).waddr = s.waddr := rfl
@[simp] theorem State.writeStatus_ioaddr (v : Word) (s : State) : (s.writeStatus v).ioaddr = s.ioaddr := rfl
@[simp] theorem State.writeStatus_opcode (v : Word) (s : State) : (s.writeStatus v).opcode = s.opcode := rfl
@[simp] theorem State.writeStatus_mode (v : Word) (s : State) : (s.writeStatus v).mode = s.mode := rfl
@[simp] theorem State.writeStatus_param1 (v : Word) (s : State) : (s.writeStatus v).param1 = s.param1 := rfl
@[simp] theorem State.writeStatus_param2 (v : Word) (s : State) : (s.writeStatus v).param2 = s.param2 := rfl
@[simp] theorem State.writeStatus_dlen (v : Word) (s : State) : (s.writeStatus v).dlen = s.dlen := rfl
@[simp] theorem State.writeStatus_wrLen (v : Word) (s : State) : (s.writeStatus v).wrLen = s.wrLen := rfl
@[simp] theorem State.writeStatus_rdLen (v : Word) (s : State) : (s.writeStatus v).rdLen = s.rdLen := rfl
@[simp] theorem State.writeStatus_crcLen (v : Word) (s : State) : (s.writeStatus v).crcLen = s.crcLen := rfl
@[simp] theorem State.writeStatus_respLen (v : Word) (s : State) : (s.writeStatus v).respLen = s.respLen := rfl
@[simp] theorem State.writeStatus_frameLen (v : Word) (s : State) : (s.writeStatus v).frameLen = s.frameLen := rfl
@[simp] theorem State.writeStatus_rxLen (v : Word) (s : State) : (s.writeStatus v).rxLen = s.rxLen := rfl
@[simp] theorem State.writeStatus_crc (v : Word) (s : State) : (s.writeStatus v).crc = s.crc := rfl
@[simp] theorem State.writeStatus_rsp (v : Word) (s : State) : (s.writeStatus v).rsp = s.rsp := rfl
@[simp] theorem State.writeStatus_byteAt (v : Word) (s : State) (o : Nat) : (s.writeStatus v).byteAt o = s.byteAt o := rfl
@[simp] theorem State.writeStatus_bufByte (v : Word) (s : State) (b : Buf) (i : Nat) : (s.writeStatus v).bufByte b i = s.bufByte b i := rfl
@[simp] theorem State.writeStatus_bufSlice (v : Word) (s : State) (b : Buf) (i k : Nat) : (s.writeStatus v).bufSlice b i k = s.bufSlice b i k := rfl

/-! ## The reset step -/

@[simp] theorem State.resetStep_params (s : State) : s.resetStep.params = s.params := rfl
@[simp] theorem State.resetStep_turns (s : State) : s.resetStep.turns = s.turns := rfl
@[simp] theorem State.resetStep_seq (s : State) : s.resetStep.seq = (State.initial s.params).seq := rfl
@[simp] theorem State.resetStep_pending (s : State) : s.resetStep.pending = (State.initial s.params).pending := rfl
@[simp] theorem State.resetStep_trace (s : State) : s.resetStep.trace = s.trace := rfl
@[simp] theorem State.resetStep_hostLog (s : State) : s.resetStep.hostLog = s.hostLog := rfl
@[simp] theorem State.resetStep_epoch (s : State) : s.resetStep.epoch = s.epoch + 1 := rfl
@[simp] theorem State.resetStep_draws (s : State) : s.resetStep.draws = s.draws := rfl
@[simp] theorem State.resetStep_mem (s : State) : s.resetStep.mem = (State.initial s.params).mem := rfl
@[simp] theorem State.resetStep_ie (s : State) : s.resetStep.ie = (State.initial s.params).ie := rfl
@[simp] theorem State.resetStep_retries (s : State) : s.resetStep.retries = (State.initial s.params).retries := rfl
@[simp] theorem State.resetStep_busy (s : State) : s.resetStep.busy = (State.initial s.params).busy := rfl
@[simp] theorem State.resetStep_done (s : State) : s.resetStep.done = (State.initial s.params).done := rfl
@[simp] theorem State.resetStep_ovr (s : State) : s.resetStep.ovr = (State.initial s.params).ovr := rfl
@[simp] theorem State.resetStep_tstate (s : State) : s.resetStep.tstate = (State.initial s.params).tstate := rfl
@[simp] theorem State.resetStep_phase (s : State) : s.resetStep.phase = (State.initial s.params).phase := rfl
@[simp] theorem State.resetStep_attempts (s : State) : s.resetStep.attempts = (State.initial s.params).attempts := rfl
@[simp] theorem State.resetStep_cmd (s : State) : s.resetStep.cmd = (State.initial s.params).cmd := rfl
@[simp] theorem State.resetStep_result (s : State) : s.resetStep.result = (State.initial s.params).result := rfl
@[simp] theorem State.resetStep_devAddr (s : State) : s.resetStep.devAddr = (State.initial s.params).devAddr := rfl
@[simp] theorem State.resetStep_waddr (s : State) : s.resetStep.waddr = (State.initial s.params).waddr := rfl
@[simp] theorem State.resetStep_ioaddr (s : State) : s.resetStep.ioaddr = (State.initial s.params).ioaddr := rfl
@[simp] theorem State.resetStep_opcode (s : State) : s.resetStep.opcode = (State.initial s.params).opcode := rfl
@[simp] theorem State.resetStep_mode (s : State) : s.resetStep.mode = (State.initial s.params).mode := rfl
@[simp] theorem State.resetStep_param1 (s : State) : s.resetStep.param1 = (State.initial s.params).param1 := rfl
@[simp] theorem State.resetStep_param2 (s : State) : s.resetStep.param2 = (State.initial s.params).param2 := rfl
@[simp] theorem State.resetStep_dlen (s : State) : s.resetStep.dlen = (State.initial s.params).dlen := rfl
@[simp] theorem State.resetStep_wrLen (s : State) : s.resetStep.wrLen = (State.initial s.params).wrLen := rfl
@[simp] theorem State.resetStep_rdLen (s : State) : s.resetStep.rdLen = (State.initial s.params).rdLen := rfl
@[simp] theorem State.resetStep_crcLen (s : State) : s.resetStep.crcLen = (State.initial s.params).crcLen := rfl
@[simp] theorem State.resetStep_respLen (s : State) : s.resetStep.respLen = (State.initial s.params).respLen := rfl
@[simp] theorem State.resetStep_frameLen (s : State) : s.resetStep.frameLen = (State.initial s.params).frameLen := rfl
@[simp] theorem State.resetStep_rxLen (s : State) : s.resetStep.rxLen = (State.initial s.params).rxLen := rfl
@[simp] theorem State.resetStep_crc (s : State) : s.resetStep.crc = (State.initial s.params).crc := rfl
@[simp] theorem State.resetStep_rsp (s : State) : s.resetStep.rsp = (State.initial s.params).rsp := rfl

/-! ## Moving the schedule -/

@[simp] theorem State.turns_byteAt (ts : List Turn) (s : State) (o : Nat) : State.byteAt { s with turns := ts } o = s.byteAt o := rfl

@[simp] theorem State.turns_bufSlice (ts : List Turn) (s : State) (b : Buf) (i n : Nat) :
    State.bufSlice { s with turns := ts } b i n = s.bufSlice b i n := rfl

@[simp] theorem State.setPhase_commandFrame (p : Phase) (s : State) : (s.setPhase p).commandFrame = s.commandFrame := rfl

@[simp] theorem State.setRsp_commandFrame (r : Rsp) (s : State) : (s.setRsp r).commandFrame = s.commandFrame := rfl

@[simp] theorem State.goto_commandFrame (p : Pos) (s : State) : (s.goto p).commandFrame = s.commandFrame := rfl

/-- Going on at another line keeps the snapshot of RETRIES (10_state R63). -/
@[simp] theorem State.goto_snapRetries (p : Pos) (s : State) : (s.goto p).snapRetries = s.snapRetries := by
  unfold State.goto State.snapRetries; cases s.seq <;> rfl

/-- Starting a command keeps the snapshot of RETRIES (10_state R63). -/
@[simp] theorem State.begin_snapRetries (p : Pos) (s : State) : (s.begin p).snapRetries = s.snapRetries := by
  unfold State.begin State.snapRetries
  cases s.seq with
  | none => rfl
  | some q => simp only [Option.map_some, Option.getD_some]; split <;> rfl

end Sys2Proof.Machine
end

