-- ==== Sys2Proof/Laws/Bus.lean ====
section
/-! SUPPORT. What one step of each bus primitive can do: which fields it can change, that it waits where it is when its action is
not answered, and that a step which issues no action does not look at the reply. -/

namespace Sys2Proof.Machine

variable {P R : Type}

/-! ## Issuing an action -/

@[simp] theorem onBus_none (a : Action) (here : P) (s : State) (k : BusReply → State → State × Flow P R) :
    onBus a none here s k = (s.await a, .at here) := rfl

@[simp] theorem onBus_some (a : Action) (r : BusReply) (here : P) (s : State) (k : BusReply → State → State × Flow P R) :
    onBus a (some r) here s k = k r (s.answered a r) := rfl

/-- A bus step either waits, holding its action, or is answered and goes on (42_bus R161, R173). -/
theorem onBus_cases (a : Action) (reply : Option BusReply) (here : P) (s : State)
    (k : BusReply → State → State × Flow P R) :
    (reply = none ∧ onBus a reply here s k = (s.await a, .at here)) ∨
      ∃ r, reply = some r ∧ onBus a reply here s k = k r (s.answered a r) := by
  cases reply <;> simp

/-! ## Calling a primitive -/

@[simp] theorem inCall_at {Q A : Type} (s : State) (q : Q) (inside : Q → P) (k : A → State → State × Flow P R) :
    inCall (s, .at q) inside k = (s, .at (inside q)) := rfl

@[simp] theorem inCall_ret {Q A : Type} (s : State) (a : A) (inside : Q → P) (k : A → State → State × Flow P R) :
    inCall (s, .ret a) inside k = k a s := rfl

@[simp] theorem callLine_at {Q A : Type} (s : State) (q : Q) (inside : Q → Pos) (k : A → State → State) :
    callLine (s, .at q) inside k = s.goto (inside q) := rfl

@[simp] theorem callLine_ret {Q A : Type} (s : State) (a : A) (inside : Q → Pos) (k : A → State → State) :
    callLine (s, .ret a) inside k = k a s := rfl

/-- What a primitive's step may change: the pending action, the bus trace, at its end, and TSTATE. -/
def BusFrame (s t : State) : Prop :=
  ∃ pd tr ts, t = { s with pending := pd, trace := s.trace ++ tr, tstate := ts }

theorem BusFrame.refl (s : State) : BusFrame s s := ⟨s.pending, [], s.tstate, by simp⟩

theorem BusFrame.trans {s t u : State} (h : BusFrame s t) (h' : BusFrame t u) : BusFrame s u := by
  obtain ⟨pd, tr, ts, rfl⟩ := h
  obtain ⟨pd', tr', ts', rfl⟩ := h'
  exact ⟨pd', tr ++ tr', ts', by simp⟩

theorem BusFrame.setTState (x : TState) (s : State) : BusFrame s (s.setTState x) :=
  ⟨s.pending, [], x, by simp [State.setTState]⟩

theorem BusFrame.await (a : Action) (s : State) : BusFrame s (s.await a) := ⟨some a, [], s.tstate, by simp [State.await]⟩

theorem BusFrame.answered (a : Action) (r : BusReply) (s : State) : BusFrame s (s.answered a r) :=
  ⟨none, [a.event r], s.tstate, by simp [State.answered]⟩

/-- A bus step keeps the frame when what its line does after the answer keeps it. -/
theorem BusFrame.onBus {a : Action} {reply : Option BusReply} {here : P} {s : State}
    {k : BusReply → State → State × Flow P R} (hk : ∀ r t, BusFrame t (k r t).1) : BusFrame s (onBus a reply here s k).1 := by
  cases reply with
  | none => exact BusFrame.await a s
  | some r => exact (BusFrame.answered a r s).trans (hk r _)

/-- A call keeps the frame when the callee's step does and the calling line adds nothing. -/
theorem BusFrame.inCall {Q A : Type} {s : State} {x : State × Flow Q A} {inside : Q → P} {k : A → State → State × Flow P R}
    (hx : BusFrame s x.1) (hk : ∀ a t, (k a t).1 = t) : BusFrame s (inCall x inside k).1 := by
  obtain ⟨t, q | a⟩ := x
  · exact hx
  · simpa [hk] using hx

/-! ## The primitives (42_bus R162 to R165) -/

/-- One step of `SendByte` changes no more than the frame. -/
theorem sendByteStep_frame (b : Byte) (p : SendPos) (reply : Option BusReply) (s : State) :
    BusFrame s (sendByteStep b p reply s).1 := by
  rcases p with _ | a | a | _
  · exact BusFrame.onBus fun _ t => BusFrame.refl t
  · cases a <;> exact BusFrame.refl s
  · cases a
    · exact BusFrame.refl s
    · exact BusFrame.onBus fun _ t => BusFrame.setTState .failed t
    · exact BusFrame.refl s
  · exact BusFrame.setTState .failed s

theorem startTransfer_frame (reply : Option BusReply) (here granted : P) (fail : R) (s : State) :
    BusFrame s (startTransfer reply here granted fail s).1 :=
  BusFrame.onBus fun r t => by
    cases h : r.start
    · simpa [h] using BusFrame.refl t
    · simpa [h] using BusFrame.setTState .failed t

theorem sendOrFail_frame (b : Byte) (p : SendPos) (reply : Option BusReply) (inside : SendPos → P) (sent : P) (fail : R)
    (s : State) : BusFrame s (sendOrFail b p reply inside sent fail s).1 :=
  BusFrame.inCall (sendByteStep_frame b p reply s) fun _ _ => rfl

/-- One step of `BusWrite` changes no more than the frame. -/
theorem busWriteStep_frame (wa : Half) (payload : List Byte) (p : WritePos) (reply : Option BusReply) (s : State) :
    BusFrame s (busWriteStep wa payload p reply s).1 := by
  cases p with
  | start => exact startTransfer_frame ..
  | addr p => exact sendOrFail_frame ..
  | byte b rest p => exact sendOrFail_frame ..
  | forBytes l => cases l <;> exact BusFrame.refl s
  | stop => exact BusFrame.onBus fun _ t => BusFrame.refl t
  | retOk => exact BusFrame.refl s
  | setAddrW => exact BusFrame.setTState ..
  | setDataSent => exact BusFrame.setTState ..
  | setStopSent => exact BusFrame.setTState ..
  | setIdle => exact BusFrame.setTState ..

/-- One step of `BusRead` changes no more than the frame. -/
theorem busReadStep_frame (wa : Half) (n : Nat) (p : ReadPos) (reply : Option BusReply) (s : State) :
    BusFrame s (busReadStep wa n p reply s).1 := by
  cases p with
  | start => exact startTransfer_frame ..
  | addrW p => exact sendOrFail_frame ..
  | byte b rest p => exact sendOrFail_frame ..
  | addrR p => exact sendOrFail_frame ..
  | forBytes l => cases l <;> exact BusFrame.refl s
  | rstart =>
    refine BusFrame.onBus fun r t => ?_
    cases h : r.rstart
    · exact BusFrame.refl t
    · exact BusFrame.setTState .failed t
  | rdbytes => exact BusFrame.onBus fun _ t => BusFrame.refl t
  | lenCheck v =>
    by_cases hv : v.length ≠ n
    · simp only [busReadStep, if_pos hv]
      exact BusFrame.onBus fun _ t => BusFrame.setTState .failed t
    · simp only [busReadStep, if_neg hv]
      exact BusFrame.refl s
  | stop v => exact BusFrame.onBus fun _ t => BusFrame.refl t
  | retOk v => exact BusFrame.refl s
  | setAddrW => exact BusFrame.setTState ..
  | setDataSent => exact BusFrame.setTState ..
  | setRstartPending => exact BusFrame.setTState ..
  | setAddrR => exact BusFrame.setTState ..
  | setDataReceived v => exact BusFrame.setTState ..
  | setIdle v => exact BusFrame.setTState ..

/-- One step of `Resync` changes no more than the frame. -/
theorem resyncStep_frame (p : ResyncPos) (reply : Option BusReply) (s : State) :
    BusFrame s (resyncStep p reply s).1 := by
  cases p with
  | start =>
    refine BusFrame.onBus fun r t => ?_
    cases h : r.start <;> exact BusFrame.refl t
  | startAgain =>
    refine BusFrame.onBus fun r t => ?_
    cases h : r.start <;> exact BusFrame.refl t
  | dummy => exact BusFrame.onBus fun _ t => BusFrame.refl t
  | stop => exact BusFrame.onBus fun _ t => BusFrame.refl t
  | setFailed => exact BusFrame.setTState ..
  | setIdle => exact BusFrame.setTState ..
  | retHeld => exact BusFrame.refl s
  | retOk => exact BusFrame.refl s

/-! ## Waiting: an unanswered action is held, and the primitive stays at its line (42_bus R173) -/

theorem sendByteStep_unanswered {b : Byte} {p : SendPos} {s : State} {a : Action} (h : p.action b = some a) :
    sendByteStep b p none s = (s.await a, .at p) := by
  rcases p with _ | x | x | _ <;> first | (cases x <;> simp_all [SendPos.action, sendByteStep]) | simp_all [SendPos.action, sendByteStep]

theorem busWriteStep_unanswered {wa : Half} {payload : List Byte} {p : WritePos} {s : State} {a : Action}
    (h : p.action s.devAddr = some a) : busWriteStep wa payload p none s = (s.await a, .at p) := by
  cases p <;> simp_all [WritePos.action, busWriteStep, startTransfer, sendOrFail, sendByteStep_unanswered]

theorem busReadStep_unanswered {wa : Half} {n : Nat} {p : ReadPos} {s : State} {a : Action}
    (h : p.action s.devAddr n = some a) : busReadStep wa n p none s = (s.await a, .at p) := by
  cases p <;> simp_all [ReadPos.action, busReadStep, startTransfer, sendOrFail, sendByteStep_unanswered]

theorem resyncStep_unanswered {p : ResyncPos} {s : State} {a : Action} (h : p.action = some a) :
    resyncStep p none s = (s.await a, .at p) := by
  cases p <;> simp_all [ResyncPos.action, resyncStep]

theorem retryStep_unanswered {f : List Byte} {p : RetryPos} {s : State} {a : Action} (h : p.action s.devAddr = some a) :
    retryStep f p none s = (s.await a, .at p) := by
  obtain ⟨n, l⟩ := p
  cases l <;> simp_all [RetryPos.action, retryStep, busWriteStep_unanswered, resyncStep_unanswered]

/-! ## A line that issues no action does not look at the reply -/

theorem sendByteStep_internal {b : Byte} {p : SendPos} {s : State} (h : p.action b = none) (reply : Option BusReply) :
    sendByteStep b p reply s = sendByteStep b p none s := by
  rcases p with _ | x | x | _ <;> first | (cases x <;> simp_all [SendPos.action, sendByteStep]) | simp_all [SendPos.action, sendByteStep]

theorem busWriteStep_internal {wa : Half} {payload : List Byte} {p : WritePos} {s : State}
    (h : p.action s.devAddr = none) (reply : Option BusReply) :
    busWriteStep wa payload p reply s = busWriteStep wa payload p none s := by
  cases p with
  | addr p => simp only [busWriteStep, sendOrFail, sendByteStep_internal (p := p) h reply]
  | byte b rest p => simp only [busWriteStep, sendOrFail, sendByteStep_internal (p := p) h reply]
  | forBytes l => cases l <;> rfl
  | _ => first | rfl | simp_all [WritePos.action]

theorem busReadStep_internal {wa : Half} {n : Nat} {p : ReadPos} {s : State} (h : p.action s.devAddr n = none)
    (reply : Option BusReply) : busReadStep wa n p reply s = busReadStep wa n p none s := by
  cases p with
  | addrW p => simp only [busReadStep, sendOrFail, sendByteStep_internal (p := p) h reply]
  | byte b rest p => simp only [busReadStep, sendOrFail, sendByteStep_internal (p := p) h reply]
  | addrR p => simp only [busReadStep, sendOrFail, sendByteStep_internal (p := p) h reply]
  | forBytes l => cases l <;> rfl
  | lenCheck v => simp_all [ReadPos.action, busReadStep]
  | _ => first | rfl | simp_all [ReadPos.action]

theorem resyncStep_internal {p : ResyncPos} {s : State} (h : p.action = none) (reply : Option BusReply) :
    resyncStep p reply s = resyncStep p none s := by
  cases p <;> simp_all [ResyncPos.action, resyncStep]

/-! ## The command write with retry (43_transaction R199) -/

/-- One step of `WriteWithRetry` changes no more than the frame, PHASE and ATTEMPTS. -/
theorem retryStep_frame (f : List Byte) (p : RetryPos) (reply : Option BusReply) (s : State) :
    ∃ pd tr ts ph at', (retryStep f p reply s).1 =
      { s with pending := pd, trace := s.trace ++ tr, tstate := ts, phase := ph, attempts := at' } := by
  obtain ⟨n, l⟩ := p
  cases l with
  | head => exact ⟨s.pending, [], s.tstate, s.phase, s.attempts, by simp [retryStep]⟩
  | exhausted => exact ⟨s.pending, [], s.tstate, s.phase, s.attempts, by simp [retryStep]⟩
  | setWrite => exact ⟨s.pending, [], s.tstate, .write, s.attempts, by simp [retryStep, State.setPhase]⟩
  | setAttempts => exact ⟨s.pending, [], s.tstate, s.phase, BitVec.ofNat 4 n, by simp [retryStep, State.setAttempts]⟩
  | setResync => exact ⟨s.pending, [], s.tstate, .resync, s.attempts, by simp [retryStep, State.setPhase]⟩
  | write w =>
    obtain ⟨pd, tr, ts, ht⟩ := BusFrame.inCall (busWriteStep_frame s.ioaddr f w reply s)
      (inside := fun w => RetryPos.mk n (.write w))
      (k := fun ok s => (s, if ok then .ret ResultCode.ok else .at (RetryPos.mk n .setResync))) fun _ _ => rfl
    exact ⟨pd, tr, ts, s.phase, s.attempts, ht⟩
  | resync q =>
    obtain ⟨pd, tr, ts, ht⟩ := BusFrame.inCall (resyncStep_frame q reply s)
      (inside := fun q => RetryPos.mk n (.resync q))
      (k := fun ok s => (s, if ok then .at (RetryPos.mk (n + 1) .head) else .ret ResultCode.resyncFail)) fun _ _ => rfl
    exact ⟨pd, tr, ts, s.phase, s.attempts, ht⟩

end Sys2Proof.Machine
end

