-- ==== Sys2Proof/Laws/Framer.lean ====
section
/-! SUPPORT. What the operand assembly, the CRC engine and the framer answer: byte order, lengths, and the one shape of a marshalled
frame. -/

namespace Sys2Proof.Machine

@[simp] theorem be16_length (v : Half) : (be16 v).length = 2 := rfl

/-- `from_be16` undoes `be16` (00_scope R24). -/
theorem fromBe16_be16 (v : Half) : fromBe16 (v.extractLsb' 8 8) (v.extractLsb' 0 8) = v := by
  apply BitVec.eq_of_getLsbD_eq
  intro i hi
  simp only [fromBe16, BitVec.getLsbD_append, BitVec.getLsbD_extractLsb']
  by_cases h : i < 8
  · simp [h]
  · simp [h, show i - 8 < 8 by omega, show 8 + (i - 8) = i by omega]

/-- `be16` of two bytes put together is those bytes, high byte first (00_scope R24). -/
theorem be16_fromBe16 (a b : Byte) : be16 (fromBe16 a b) = [a, b] := by
  have h1 : (fromBe16 a b).extractLsb' 8 8 = a := by
    apply BitVec.eq_of_getLsbD_eq
    intro i hi
    simp only [fromBe16, BitVec.getLsbD_append, BitVec.getLsbD_extractLsb']
    simp [hi]
  have h2 : (fromBe16 a b).extractLsb' 0 8 = b := by
    apply BitVec.eq_of_getLsbD_eq
    intro i hi
    simp only [fromBe16, BitVec.getLsbD_append, BitVec.getLsbD_extractLsb']
    simp [hi]
  simp [be16, h1, h2]

/-- The CRC runs over a stream piece by piece (40_crc R125). -/
theorem crcRegister_append (s u : List Byte) : crcRegister (s ++ u) = u.foldl crcByte (crcRegister s) := by
  simp [crcRegister, List.foldl_append]

@[simp] theorem crc16_length (s : List Byte) : (crc16 s).length = 2 := rfl

@[simp] theorem withCrc_length (f : List Byte) : (withCrc f).length = f.length + 2 := by simp [withCrc]

/-- A buffer slice has the length asked for (00_scope R18). -/
@[simp] theorem State.bufSlice_length (s : State) (b : Buf) (a n : Nat) : (s.bufSlice b a n).length = n := by
  simp [State.bufSlice]

/-- Byte j of a buffer slice (00_scope R18). -/
theorem State.bufSlice_getElem (s : State) (b : Buf) (a n j : Nat) (h : j < (s.bufSlice b a n).length) :
    (s.bufSlice b a n)[j] = s.bufByte b (a + j) := by
  simp [State.bufSlice]

/-- A frame `Marshal` returns has one shape, and its payload fits (41_framer R135). -/
theorem marshalFrame_some {p : Params} {op mode : Byte} {p1 p2 : Half} {l1 l2 l3 l4 : Byte} {d f : List Byte}
    (h : marshalFrame p op mode p1 p2 l1 l2 l3 l4 d = some f) :
    segmentSum l1 l2 l3 l4 ≤ p.dbufSize ∧
      f = withCrc ([BitVec.ofNat 8 (9 + segmentSum l1 l2 l3 l4), op, mode] ++ be16 p1 ++ be16 p2
        ++ d.take (segmentSum l1 l2 l3 l4)) := by
  simp only [marshalFrame] at h
  split at h
  · cases h
  · next hl => exact ⟨by omega, by simpa using h.symm⟩

/-- Its length, when DBUF is at least as long as the payload (41_framer R135). -/
theorem marshalFrame_length {p : Params} {op mode : Byte} {p1 p2 : Half} {l1 l2 l3 l4 : Byte} {d f : List Byte}
    (h : marshalFrame p op mode p1 p2 l1 l2 l3 l4 d = some f) (hd : p.dbufSize ≤ d.length) :
    f.length = 9 + segmentSum l1 l2 l3 l4 := by
  obtain ⟨hl, rfl⟩ := marshalFrame_some h
  simp [withCrc, be16]
  omega

/-- The frame MARSHAL and EXECUTE build has 9 + L bytes (41_framer R135, R136). -/
theorem State.commandFrame_length {s : State} {f : List Byte} (h : s.commandFrame = some f) :
    f.length = 9 + payloadLength s.dlen ∧ payloadLength s.dlen ≤ s.params.dbufSize :=
  ⟨marshalFrame_length h (by simp), (marshalFrame_some h).1⟩

end Sys2Proof.Machine
end

