-- ==== Sys2Proof/Laws/Memory.lean ====
section
/-! SUPPORT. The laws of the buffer memory: a read after a write, a write leaves every other offset alone, every operation keeps the
canonical form, and what a stored byte sequence reads as. -/

namespace Sys2Proof.Machine

/-! ## The list of cells -/

theorem Memory.read_write_same (m : List Host.Cell) (a : Nat) (v : Byte) : Memory.read (Memory.write m a v) a = some v := by
  induction m with
  | nil => simp [Memory.write, Memory.read]
  | cons c rest ih =>
    obtain ⟨k, w⟩ := c
    unfold Memory.write
    split_ifs with h1 h2
    · simp [Memory.read]
    · simp [Memory.read]
    · simp [Memory.read, Ne.symm h2, ih]

theorem Memory.read_write_other (m : List Host.Cell) {a b : Nat} (v : Byte) (h : b ≠ a) :
    Memory.read (Memory.write m a v) b = Memory.read m b := by
  induction m with
  | nil => simp [Memory.write, Memory.read, Ne.symm h]
  | cons c rest ih =>
    obtain ⟨k, w⟩ := c
    unfold Memory.write
    split_ifs with h1 h2
    · simp [Memory.read, Ne.symm h]
    · subst h2; simp [Memory.read, Ne.symm h]
    · simp [Memory.read, ih]

theorem Memory.sortedFrom_write {lo : Option Nat} {m : List Host.Cell} {a : Nat} (v : Byte)
    (hm : Memory.sortedFrom lo m = true) (hlo : ∀ l, lo = some l → l < a) :
    Memory.sortedFrom lo (Memory.write m a v) = true := by
  induction m generalizing lo with
  | nil => cases lo <;> simp_all [Memory.write, Memory.sortedFrom]
  | cons c rest ih =>
    obtain ⟨k, w⟩ := c
    simp only [Memory.sortedFrom, Bool.and_eq_true] at hm
    unfold Memory.write
    split_ifs with h1 h2
    · cases lo <;> simp_all [Memory.sortedFrom]
    · subst h2; simp [Memory.sortedFrom, hm.1, hm.2]
    · simp only [Memory.sortedFrom, Bool.and_eq_true]
      refine ⟨hm.1, ih hm.2 fun l hl => ?_⟩
      cases hl; omega

theorem Memory.all_mapped_write {p : Params} {m : List Host.Cell} {a : Nat} (v : Byte)
    (hm : (m.all fun c => Memory.mapped p c.1) = true) (ha : Memory.mapped p a = true) :
    ((Memory.write m a v).all fun c => Memory.mapped p c.1) = true := by
  induction m with
  | nil => simp [Memory.write, ha]
  | cons c rest ih =>
    obtain ⟨k, w⟩ := c
    simp only [List.all_cons, Bool.and_eq_true] at hm
    unfold Memory.write
    split_ifs
    · simp [ha, hm.1]; simpa using hm.2
    · simp [ha]; simpa using hm.2
    · simp only [List.all_cons, hm.1, Bool.true_and]; exact ih hm.2

/-- A write to a mapped offset keeps the canonical form (log 17). -/
theorem Memory.wf_write {p : Params} {m : List Host.Cell} {a : Nat} (v : Byte) (hm : Memory.wf p m = true)
    (ha : Memory.mapped p a = true) : Memory.wf p (Memory.write m a v) = true := by
  simp only [Memory.wf, Bool.and_eq_true] at hm ⊢
  exact ⟨Memory.sortedFrom_write v hm.1 (by simp), Memory.all_mapped_write v hm.2 ha⟩

/-- The memory right after reset is canonical. -/
@[simp] theorem Memory.wf_nil (p : Params) : Memory.wf p [] = true := rfl

/-! ## The buffer windows -/

/-- The offset of an implemented entry is mapped (10_state R60). -/
theorem Buf.offset_mapped {p : Params} {b : Buf} {i : Nat} (h : i < b.size p) : Memory.mapped p (b.offset i) = true := by
  cases b <;> simp [Memory.mapped, Buf.offset, Buf.base] <;> omega

/-- Within a buffer, different entries have different offsets (10_state R60). -/
theorem Buf.offset_inj {b : Buf} {i j : Nat} (h : b.offset i = b.offset j) : i = j := by
  simp only [Buf.offset] at h; omega

/-- With legal parameters the windows of different buffers do not meet (10_state R60). -/
theorem Buf.offset_ne {p : Params} (hp : p.legal = true) {b c : Buf} (hbc : b ≠ c) {i j : Nat} (hi : i < b.size p)
    (hj : j < c.size p) : b.offset i ≠ c.offset j := by
  simp only [Params.legal, Bool.and_eq_true, decide_eq_true_eq] at hp
  cases b <;> cases c <;> simp_all [Buf.offset, Buf.base, Buf.size, Params.dbufSize] <;> omega

/-! ## Writing one buffer byte -/

/-- A buffer write changes `mem` only. -/
theorem State.setBufByte_frame (s : State) (b : Buf) (i : Nat) (v : Byte) :
    ∃ m, s.setBufByte b i v = { s with mem := m } := by
  unfold State.setBufByte; split
  · exact ⟨_, rfl⟩
  · exact ⟨s.mem, rfl⟩

@[simp] theorem State.setBufByte_params (s : State) (b : Buf) (i : Nat) (v : Byte) : (s.setBufByte b i v).params = s.params := by
  obtain ⟨m, h⟩ := State.setBufByte_frame s b i v; rw [h]
@[simp] theorem State.setBufByte_turns (s : State) (b : Buf) (i : Nat) (v : Byte) : (s.setBufByte b i v).turns = s.turns := by
  obtain ⟨m, h⟩ := State.setBufByte_frame s b i v; rw [h]
@[simp] theorem State.setBufByte_seq (s : State) (b : Buf) (i : Nat) (v : Byte) : (s.setBufByte b i v).seq = s.seq := by
  obtain ⟨m, h⟩ := State.setBufByte_frame s b i v; rw [h]
@[simp] theorem State.setBufByte_pending (s : State) (b : Buf) (i : Nat) (v : Byte) : (s.setBufByte b i v).pending = s.pending := by
  obtain ⟨m, h⟩ := State.setBufByte_frame s b i v; rw [h]
@[simp] theorem State.setBufByte_trace (s : State) (b : Buf) (i : Nat) (v : Byte) : (s.setBufByte b i v).trace = s.trace := by
  obtain ⟨m, h⟩ := State.setBufByte_frame s b i v; rw [h]
@[simp] theorem State.setBufByte_hostLog (s : State) (b : Buf) (i : Nat) (v : Byte) : (s.setBufByte b i v).hostLog = s.hostLog := by
  obtain ⟨m, h⟩ := State.setBufByte_frame s b i v; rw [h]
@[simp] theorem State.setBufByte_epoch (s : State) (b : Buf) (i : Nat) (v : Byte) : (s.setBufByte b i v).epoch = s.epoch := by
  obtain ⟨m, h⟩ := State.setBufByte_frame s b i v; rw [h]
@[simp] theorem State.setBufByte_draws (s : State) (b : Buf) (i : Nat) (v : Byte) : (s.setBufByte b i v).draws = s.draws := by
  obtain ⟨m, h⟩ := State.setBufByte_frame s b i v; rw [h]
@[simp] theorem State.setBufByte_ie (s : State) (b : Buf) (i : Nat) (v : Byte) : (s.setBufByte b i v).ie = s.ie := by
  obtain ⟨m, h⟩ := State.setBufByte_frame s b i v; rw [h]
@[simp] theorem State.setBufByte_retries (s : State) (b : Buf) (i : Nat) (v : Byte) : (s.setBufByte b i v).retries = s.retries := by
  obtain ⟨m, h⟩ := State.setBufByte_frame s b i v; rw [h]
@[simp] theorem State.setBufByte_busy (s : State) (b : Buf) (i : Nat) (v : Byte) : (s.setBufByte b i v).busy = s.busy := by
  obtain ⟨m, h⟩ := State.setBufByte_frame s b i v; rw [h]
@[simp] theorem State.setBufByte_done (s : State) (b : Buf) (i : Nat) (v : Byte) : (s.setBufByte b i v).done = s.done := by
  obtain ⟨m, h⟩ := State.setBufByte_frame s b i v; rw [h]
@[simp] theorem State.setBufByte_ovr (s : State) (b : Buf) (i : Nat) (v : Byte) : (s.setBufByte b i v).ovr = s.ovr := by
  obtain ⟨m, h⟩ := State.setBufByte_frame s b i v; rw [h]
@[simp] theorem State.setBufByte_tstate (s : State) (b : Buf) (i : Nat) (v : Byte) : (s.setBufByte b i v).tstate = s.tstate := by
  obtain ⟨m, h⟩ := State.setBufByte_frame s b i v; rw [h]
@[simp] theorem State.setBufByte_phase (s : State) (b : Buf) (i : Nat) (v : Byte) : (s.setBufByte b i v).phase = s.phase := by
  obtain ⟨m, h⟩ := State.setBufByte_frame s b i v; rw [h]
@[simp] theorem State.setBufByte_attempts (s : State) (b : Buf) (i : Nat) (v : Byte) : (s.setBufByte b i v).attempts = s.attempts := by
  obtain ⟨m, h⟩ := State.setBufByte_frame s b i v; rw [h]
@[simp] theorem State.setBufByte_cmd (s : State) (b : Buf) (i : Nat) (v : Byte) : (s.setBufByte b i v).cmd = s.cmd := by
  obtain ⟨m, h⟩ := State.setBufByte_frame s b i v; rw [h]
@[simp] theorem State.setBufByte_result (s : State) (b : Buf) (i : Nat) (v : Byte) : (s.setBufByte b i v).result = s.result := by
  obtain ⟨m, h⟩ := State.setBufByte_frame s b i v; rw [h]
@[simp] theorem State.setBufByte_devAddr (s : State) (b : Buf) (i : Nat) (v : Byte) : (s.setBufByte b i v).devAddr = s.devAddr := by
  obtain ⟨m, h⟩ := State.setBufByte_frame s b i v; rw [h]
@[simp] theorem State.setBufByte_waddr (s : State) (b : Buf) (i : Nat) (v : Byte) : (s.setBufByte b i v).waddr = s.waddr := by
  obtain ⟨m, h⟩ := State.setBufByte_frame s b i v; rw [h]
@[simp] theorem State.setBufByte_ioaddr (s : State) (b : Buf) (i : Nat) (v : Byte) : (s.setBufByte b i v).ioaddr = s.ioaddr := by
  obtain ⟨m, h⟩ := State.setBufByte_frame s b i v; rw [h]
@[simp] theorem State.setBufByte_opcode (s : State) (b : Buf) (i : Nat) (v : Byte) : (s.setBufByte b i v).opcode = s.opcode := by
  obtain ⟨m, h⟩ := State.setBufByte_frame s b i v; rw [h]
@[simp] theorem State.setBufByte_mode (s : State) (b : Buf) (i : Nat) (v : Byte) : (s.setBufByte b i v).mode = s.mode := by
  obtain ⟨m, h⟩ := State.setBufByte_frame s b i v; rw [h]
@[simp] theorem State.setBufByte_param1 (s : State) (b : Buf) (i : Nat) (v : Byte) : (s.setBufByte b i v).param1 = s.param1 := by
  obtain ⟨m, h⟩ := State.setBufByte_frame s b i v; rw [h]
@[simp] theorem State.setBufByte_param2 (s : State) (b : Buf) (i : Nat) (v : Byte) : (s.setBufByte b i v).param2 = s.param2 := by
  obtain ⟨m, h⟩ := State.setBufByte_frame s b i v; rw [h]
@[simp] theorem State.setBufByte_dlen (s : State) (b : Buf) (i : Nat) (v : Byte) : (s.setBufByte b i v).dlen = s.dlen := by
  obtain ⟨m, h⟩ := State.setBufByte_frame s b i v; rw [h]
@[simp] theorem State.setBufByte_wrLen (s : State) (b : Buf) (i : Nat) (v : Byte) : (s.setBufByte b i v).wrLen = s.wrLen := by
  obtain ⟨m, h⟩ := State.setBufByte_frame s b i v; rw [h]
@[simp] theorem State.setBufByte_rdLen (s : State) (b : Buf) (i : Nat) (v : Byte) : (s.setBufByte b i v).rdLen = s.rdLen := by
  obtain ⟨m, h⟩ := State.setBufByte_frame s b i v; rw [h]
@[simp] theorem State.setBufByte_crcLen (s : State) (b : Buf) (i : Nat) (v : Byte) : (s.setBufByte b i v).crcLen = s.crcLen := by
  obtain ⟨m, h⟩ := State.setBufByte_frame s b i v; rw [h]
@[simp] theorem State.setBufByte_respLen (s : State) (b : Buf) (i : Nat) (v : Byte) : (s.setBufByte b i v).respLen = s.respLen := by
  obtain ⟨m, h⟩ := State.setBufByte_frame s b i v; rw [h]
@[simp] theorem State.setBufByte_frameLen (s : State) (b : Buf) (i : Nat) (v : Byte) : (s.setBufByte b i v).frameLen = s.frameLen := by
  obtain ⟨m, h⟩ := State.setBufByte_frame s b i v; rw [h]
@[simp] theorem State.setBufByte_rxLen (s : State) (b : Buf) (i : Nat) (v : Byte) : (s.setBufByte b i v).rxLen = s.rxLen := by
  obtain ⟨m, h⟩ := State.setBufByte_frame s b i v; rw [h]
@[simp] theorem State.setBufByte_crc (s : State) (b : Buf) (i : Nat) (v : Byte) : (s.setBufByte b i v).crc = s.crc := by
  obtain ⟨m, h⟩ := State.setBufByte_frame s b i v; rw [h]
@[simp] theorem State.setBufByte_rsp (s : State) (b : Buf) (i : Nat) (v : Byte) : (s.setBufByte b i v).rsp = s.rsp := by
  obtain ⟨m, h⟩ := State.setBufByte_frame s b i v; rw [h]

/-- The byte written reads back. -/
theorem State.setBufByte_bufByte_same {s : State} {b : Buf} {i : Nat} (v : Byte) (h : i < b.size s.params) :
    (s.setBufByte b i v).bufByte b i = v := by
  simp [State.setBufByte, h, State.bufByte, State.byteAt, Memory.read_write_same]

/-- Every other offset reads as before. -/
theorem State.setBufByte_byteAt_other (s : State) {b : Buf} {i o : Nat} (v : Byte) (h : o ≠ b.offset i) :
    (s.setBufByte b i v).byteAt o = s.byteAt o := by
  unfold State.setBufByte
  split
  · simp [State.byteAt, Memory.read_write_other _ v h]
  · rfl

/-- A buffer write keeps the canonical form. -/
theorem State.setBufByte_memoryOk {s : State} (b : Buf) (i : Nat) (v : Byte) (h : s.memoryOk = true) :
    (s.setBufByte b i v).memoryOk = true := by
  simp only [State.memoryOk, Bool.and_eq_true] at h ⊢
  unfold State.setBufByte
  split
  · next hi => exact ⟨h.1, Memory.wf_write v h.2 (Buf.offset_mapped hi)⟩
  · exact h

/-! ## Writing a byte sequence -/

/-- Writing a byte sequence changes `mem` only. -/
theorem State.setBufBytes_frame (b : Buf) (a : Nat) (v : List Byte) (s : State) :
    ∃ m, s.setBufBytes b a v = { s with mem := m } := by
  induction v generalizing a s with
  | nil => exact ⟨s.mem, rfl⟩
  | cons x rest ih =>
    obtain ⟨m, hm⟩ := State.setBufByte_frame s b a x
    obtain ⟨m', hm'⟩ := ih (a + 1) (s.setBufByte b a x)
    exact ⟨m', by rw [State.setBufBytes, hm', hm]⟩

@[simp] theorem State.setBufBytes_params (s : State) (b : Buf) (a : Nat) (v : List Byte) : (s.setBufBytes b a v).params = s.params := by
  obtain ⟨m, h⟩ := State.setBufBytes_frame b a v s; rw [h]
@[simp] theorem State.setBufBytes_turns (s : State) (b : Buf) (a : Nat) (v : List Byte) : (s.setBufBytes b a v).turns = s.turns := by
  obtain ⟨m, h⟩ := State.setBufBytes_frame b a v s; rw [h]
@[simp] theorem State.setBufBytes_seq (s : State) (b : Buf) (a : Nat) (v : List Byte) : (s.setBufBytes b a v).seq = s.seq := by
  obtain ⟨m, h⟩ := State.setBufBytes_frame b a v s; rw [h]
@[simp] theorem State.setBufBytes_pending (s : State) (b : Buf) (a : Nat) (v : List Byte) : (s.setBufBytes b a v).pending = s.pending := by
  obtain ⟨m, h⟩ := State.setBufBytes_frame b a v s; rw [h]
@[simp] theorem State.setBufBytes_trace (s : State) (b : Buf) (a : Nat) (v : List Byte) : (s.setBufBytes b a v).trace = s.trace := by
  obtain ⟨m, h⟩ := State.setBufBytes_frame b a v s; rw [h]
@[simp] theorem State.setBufBytes_hostLog (s : State) (b : Buf) (a : Nat) (v : List Byte) : (s.setBufBytes b a v).hostLog = s.hostLog := by
  obtain ⟨m, h⟩ := State.setBufBytes_frame b a v s; rw [h]
@[simp] theorem State.setBufBytes_epoch (s : State) (b : Buf) (a : Nat) (v : List Byte) : (s.setBufBytes b a v).epoch = s.epoch := by
  obtain ⟨m, h⟩ := State.setBufBytes_frame b a v s; rw [h]
@[simp] theorem State.setBufBytes_draws (s : State) (b : Buf) (a : Nat) (v : List Byte) : (s.setBufBytes b a v).draws = s.draws := by
  obtain ⟨m, h⟩ := State.setBufBytes_frame b a v s; rw [h]
@[simp] theorem State.setBufBytes_ie (s : State) (b : Buf) (a : Nat) (v : List Byte) : (s.setBufBytes b a v).ie = s.ie := by
  obtain ⟨m, h⟩ := State.setBufBytes_frame b a v s; rw [h]
@[simp] theorem State.setBufBytes_retries (s : State) (b : Buf) (a : Nat) (v : List Byte) : (s.setBufBytes b a v).retries = s.retries := by
  obtain ⟨m, h⟩ := State.setBufBytes_frame b a v s; rw [h]
@[simp] theorem State.setBufBytes_busy (s : State) (b : Buf) (a : Nat) (v : List Byte) : (s.setBufBytes b a v).busy = s.busy := by
  obtain ⟨m, h⟩ := State.setBufBytes_frame b a v s; rw [h]
@[simp] theorem State.setBufBytes_done (s : State) (b : Buf) (a : Nat) (v : List Byte) : (s.setBufBytes b a v).done = s.done := by
  obtain ⟨m, h⟩ := State.setBufBytes_frame b a v s; rw [h]
@[simp] theorem State.setBufBytes_ovr (s : State) (b : Buf) (a : Nat) (v : List Byte) : (s.setBufBytes b a v).ovr = s.ovr := by
  obtain ⟨m, h⟩ := State.setBufBytes_frame b a v s; rw [h]
@[simp] theorem State.setBufBytes_tstate (s : State) (b : Buf) (a : Nat) (v : List Byte) : (s.setBufBytes b a v).tstate = s.tstate := by
  obtain ⟨m, h⟩ := State.setBufBytes_frame b a v s; rw [h]
@[simp] theorem State.setBufBytes_phase (s : State) (b : Buf) (a : Nat) (v : List Byte) : (s.setBufBytes b a v).phase = s.phase := by
  obtain ⟨m, h⟩ := State.setBufBytes_frame b a v s; rw [h]
@[simp] theorem State.setBufBytes_attempts (s : State) (b : Buf) (a : Nat) (v : List Byte) : (s.setBufBytes b a v).attempts = s.attempts := by
  obtain ⟨m, h⟩ := State.setBufBytes_frame b a v s; rw [h]
@[simp] theorem State.setBufBytes_cmd (s : State) (b : Buf) (a : Nat) (v : List Byte) : (s.setBufBytes b a v).cmd = s.cmd := by
  obtain ⟨m, h⟩ := State.setBufBytes_frame b a v s; rw [h]
@[simp] theorem State.setBufBytes_result (s : State) (b : Buf) (a : Nat) (v : List Byte) : (s.setBufBytes b a v).result = s.result := by
  obtain ⟨m, h⟩ := State.setBufBytes_frame b a v s; rw [h]
@[simp] theorem State.setBufBytes_devAddr (s : State) (b : Buf) (a : Nat) (v : List Byte) : (s.setBufBytes b a v).devAddr = s.devAddr := by
  obtain ⟨m, h⟩ := State.setBufBytes_frame b a v s; rw [h]
@[simp] theorem State.setBufBytes_waddr (s : State) (b : Buf) (a : Nat) (v : List Byte) : (s.setBufBytes b a v).waddr = s.waddr := by
  obtain ⟨m, h⟩ := State.setBufBytes_frame b a v s; rw [h]
@[simp] theorem State.setBufBytes_ioaddr (s : State) (b : Buf) (a : Nat) (v : List Byte) : (s.setBufBytes b a v).ioaddr = s.ioaddr := by
  obtain ⟨m, h⟩ := State.setBufBytes_frame b a v s; rw [h]
@[simp] theorem State.setBufBytes_opcode (s : State) (b : Buf) (a : Nat) (v : List Byte) : (s.setBufBytes b a v).opcode = s.opcode := by
  obtain ⟨m, h⟩ := State.setBufBytes_frame b a v s; rw [h]
@[simp] theorem State.setBufBytes_mode (s : State) (b : Buf) (a : Nat) (v : List Byte) : (s.setBufBytes b a v).mode = s.mode := by
  obtain ⟨m, h⟩ := State.setBufBytes_frame b a v s; rw [h]
@[simp] theorem State.setBufBytes_param1 (s : State) (b : Buf) (a : Nat) (v : List Byte) : (s.setBufBytes b a v).param1 = s.param1 := by
  obtain ⟨m, h⟩ := State.setBufBytes_frame b a v s; rw [h]
@[simp] theorem State.setBufBytes_param2 (s : State) (b : Buf) (a : Nat) (v : List Byte) : (s.setBufBytes b a v).param2 = s.param2 := by
  obtain ⟨m, h⟩ := State.setBufBytes_frame b a v s; rw [h]
@[simp] theorem State.setBufBytes_dlen (s : State) (b : Buf) (a : Nat) (v : List Byte) : (s.setBufBytes b a v).dlen = s.dlen := by
  obtain ⟨m, h⟩ := State.setBufBytes_frame b a v s; rw [h]
@[simp] theorem State.setBufBytes_wrLen (s : State) (b : Buf) (a : Nat) (v : List Byte) : (s.setBufBytes b a v).wrLen = s.wrLen := by
  obtain ⟨m, h⟩ := State.setBufBytes_frame b a v s; rw [h]
@[simp] theorem State.setBufBytes_rdLen (s : State) (b : Buf) (a : Nat) (v : List Byte) : (s.setBufBytes b a v).rdLen = s.rdLen := by
  obtain ⟨m, h⟩ := State.setBufBytes_frame b a v s; rw [h]
@[simp] theorem State.setBufBytes_crcLen (s : State) (b : Buf) (a : Nat) (v : List Byte) : (s.setBufBytes b a v).crcLen = s.crcLen := by
  obtain ⟨m, h⟩ := State.setBufBytes_frame b a v s; rw [h]
@[simp] theorem State.setBufBytes_respLen (s : State) (b : Buf) (a : Nat) (v : List Byte) : (s.setBufBytes b a v).respLen = s.respLen := by
  obtain ⟨m, h⟩ := State.setBufBytes_frame b a v s; rw [h]
@[simp] theorem State.setBufBytes_frameLen (s : State) (b : Buf) (a : Nat) (v : List Byte) : (s.setBufBytes b a v).frameLen = s.frameLen := by
  obtain ⟨m, h⟩ := State.setBufBytes_frame b a v s; rw [h]
@[simp] theorem State.setBufBytes_rxLen (s : State) (b : Buf) (a : Nat) (v : List Byte) : (s.setBufBytes b a v).rxLen = s.rxLen := by
  obtain ⟨m, h⟩ := State.setBufBytes_frame b a v s; rw [h]
@[simp] theorem State.setBufBytes_crc (s : State) (b : Buf) (a : Nat) (v : List Byte) : (s.setBufBytes b a v).crc = s.crc := by
  obtain ⟨m, h⟩ := State.setBufBytes_frame b a v s; rw [h]
@[simp] theorem State.setBufBytes_rsp (s : State) (b : Buf) (a : Nat) (v : List Byte) : (s.setBufBytes b a v).rsp = s.rsp := by
  obtain ⟨m, h⟩ := State.setBufBytes_frame b a v s; rw [h]

/-- An offset outside the stored entries reads as before. -/
theorem State.setBufBytes_byteAt_other {b : Buf} {a o : Nat} {v : List Byte} {s : State}
    (h : ∀ j, j < v.length → o ≠ b.offset (a + j)) : (s.setBufBytes b a v).byteAt o = s.byteAt o := by
  induction v generalizing a s with
  | nil => rfl
  | cons x rest ih =>
    simp only [State.setBufBytes]
    rw [ih fun j hj => by have := h (j + 1) (by simpa using hj); rwa [show a + 1 + j = a + (j + 1) by omega],
      State.setBufByte_byteAt_other s x (by simpa using h 0 (by simp))]

/-- A sequence stored inside its buffer reads back byte by byte, and nothing else changes (00_scope R18). -/
theorem State.setBufBytes_storesAt {b : Buf} {a : Nat} {v : List Byte} {s : State} (h : a + v.length ≤ b.size s.params) :
    StoresAt s (s.setBufBytes b a v) b a v := by
  refine ⟨?_, fun o ho => State.setBufBytes_byteAt_other ho⟩
  induction v generalizing a s with
  | nil => simp
  | cons x rest ih =>
    intro j hj
    simp only [List.length_cons] at h hj
    simp only [State.setBufBytes]
    cases j with
    | zero =>
      have := State.setBufBytes_byteAt_other (b := b) (a := a + 1) (o := b.offset a) (v := rest) (s := s.setBufByte b a x)
        fun j _ => by simp only [Buf.offset]; omega
      simpa [State.bufByte, this] using State.setBufByte_bufByte_same (b := b) x (by omega : a < b.size s.params)
    | succ j =>
      have := ih (a := a + 1) (s := s.setBufByte b a x) (by rw [State.setBufByte_params]; omega) j (by omega)
      simpa [show a + 1 + j = a + (j + 1) by omega] using this

/-- Writing a byte sequence keeps the canonical form. -/
theorem State.setBufBytes_memoryOk {b : Buf} {a : Nat} {v : List Byte} {s : State} (h : s.memoryOk = true) :
    (s.setBufBytes b a v).memoryOk = true := by
  induction v generalizing a s with
  | nil => exact h
  | cons x rest ih => exact ih (State.setBufByte_memoryOk b a x h)

/-- The reset step keeps the canonical form. -/
theorem State.resetStep_memoryOk {s : State} (h : s.memoryOk = true) : s.resetStep.memoryOk = true := by
  simp only [State.memoryOk, Bool.and_eq_true] at h ⊢
  exact ⟨h.1, rfl⟩

/-- A parameter register write keeps the canonical form. -/
theorem State.writeParam_memoryOk {s : State} (r : Reg) (v : Word) (h : s.memoryOk = true) :
    (s.writeParam r v).memoryOk = true := by
  cases r <;> exact h

/-- One host access keeps the canonical form. -/
theorem State.access_memoryOk {s : State} (a : Access) (h : s.memoryOk = true) : (s.access a).memoryOk = true := by
  cases a with
  | read off size =>
    simp only [State.access]
    split
    · unfold State.hostRead; split <;> exact h
    · exact h
  | write off size v =>
    simp only [State.access]
    split
    · show (State.hostWrite _ v s).memoryOk = true
      unfold State.hostWrite
      split_ifs
      · exact h
      · split
        · exact h
        · exact h
        · exact h
        · exact h
        · exact h
        · exact h
        · exact h
        · exact State.writeParam_memoryOk _ _ h
        · exact State.setBufByte_memoryOk _ _ _ h
    · exact h

end Sys2Proof.Machine
end

