-- ==== Sys2Proof/Laws/PerInstr.lean ====
section
/-! SUPPORT. One family of statements made per command: the word `encode` writes for it avoids every clause of 30_encoding R111, field
by field. -/

namespace Sys2Proof.Laws.FieldsLegal

/-- The command's word has a defined OP, a SRC only where the CRC command reads one, each flag only where its command reads it, and
every reserved bit 0 (30_encoding R95 to R99). -/
def Statement (i : Instr) : Prop :=
  1 ≤ (opField (encode i)).toNat ∧ (opField (encode i)).toNat ≤ 9 ∧
  srcField (encode i) ≠ 3#2 ∧ (srcField (encode i) ≠ 0#2 → opField (encode i) = 1#4) ∧
  (wakeFirstField (encode i) = true ↔ i = .execute true) ∧ (idleField (encode i) = true ↔ i = .sleep true) ∧
  (encode i).extractLsb' 6 2 = 0#2 ∧ (encode i).extractLsb' 10 22 = 0#22

theorem crcDbuf : Statement .crcDbuf := by unfold Statement; decide

theorem crcTxbuf : Statement .crcTxbuf := by unfold Statement; decide

theorem crcRxbuf : Statement .crcRxbuf := by unfold Statement; decide

theorem marshal : Statement .marshal := by unfold Statement; decide

theorem unmarshal : Statement .unmarshal := by unfold Statement; decide

theorem busWrite : Statement .busWrite := by unfold Statement; decide

theorem busRead : Statement .busRead := by unfold Statement; decide

theorem resync : Statement .resync := by unfold Statement; decide

theorem execute (wakeFirst : Bool) : Statement (.execute wakeFirst) := by cases wakeFirst <;> (unfold Statement; decide)

theorem wake : Statement .wake := by unfold Statement; decide

theorem sleep (idle : Bool) : Statement (.sleep idle) := by cases idle <;> (unfold Statement; decide)

end Sys2Proof.Laws.FieldsLegal
end

