-- ==== Sys2Proof/Laws/Sequencer.lean ====
section
/-! SUPPORT. Runs: the equations of `runTurns`, one induction for whatever every move keeps, what one move, one host access and one
step can do. -/

namespace Sys2Proof.Machine

/-! ## Running over the moves still to come -/

@[simp] theorem State.runTurns_nil (s : State) : State.runTurns [] s = { s with turns := [] } := rfl

/-- With no command running, no move is taken. -/
theorem State.runTurns_idle {s : State} (h : s.seq = none) (ts : List Turn) : State.runTurns ts s = { s with turns := ts } := by
  cases ts with
  | nil => rfl
  | cons t rest => simp [State.runTurns, h]

/-- With a command running, the next move is made. -/
theorem State.runTurns_running {s : State} {q : Seq} (h : s.seq = some q) (t : Turn) (rest : List Turn) :
    State.runTurns (t :: rest) s = State.runTurns rest (State.advance t { s with turns := rest }) := by
  simp [State.runTurns, h]

/-- What every move of a running command keeps, and what does not look at the moves still to come, a run keeps. `ok` says which
moves are considered. -/
theorem State.runTurns_induct {ok : Turn → Bool} {I : State → Prop} (hturns : ∀ (s : State) (ts : List Turn), I s → I { s with turns := ts })
    (hmove : ∀ (s : State) (q : Seq) (t : Turn), s.seq = some q → ok t = true → I s → I (State.advance t s))
    {ts : List Turn} (hts : ts.all ok = true) {s : State} (hs : I s) : I (State.runTurns ts s) := by
  induction ts generalizing s with
  | nil => exact hturns s [] hs
  | cons t rest ih =>
    simp only [List.all_cons, Bool.and_eq_true] at hts
    cases hq : s.seq with
    | none => rw [State.runTurns_idle hq]; exact hturns s _ hs
    | some q =>
      rw [State.runTurns_running hq]
      exact ih hts.2 (hmove { s with turns := rest } q t hq hts.1 (hturns s rest hs))

/-- Every arm of `exec` runs its command over the moves still to come. -/
theorem exec_eq (i : Instr) (s : State) : exec i s = .next (s.runCommand i) := by cases i <;> rfl

/-- A command whose word has just been accepted runs from its first line (60_exceptions R241). -/
theorem State.runCommand_atStart {s : State} {q : Seq} (h : s.seq = some q) (hp : q.pos = .accepted) (i : Instr) :
    s.runCommand i = State.runTurns s.turns (s.goto (firstLine i)) := by
  simp [State.runCommand, State.begin, State.goto, h, hp]

/-- A command in progress runs on from where it was. -/
theorem State.runCommand_inProgress {s : State} {q : Seq} (h : s.seq = some q) (hp : q.pos ≠ .accepted) (i : Instr) :
    s.runCommand i = State.runTurns s.turns s := by
  have : s.begin (firstLine i) = s := by
    cases s; simp_all [State.begin]
  rw [State.runCommand, this]

/-! ## One controller step -/

/-- With no command running the controller does nothing (10_state R62). -/
theorem State.ctrlStep_idle {s : State} (h : s.seq = none) (reply : Option BusReply) : State.ctrlStep reply s = s := by
  simp [State.ctrlStep, h]

/-- At a line of a command, the line's step (00_scope R26). -/
theorem State.ctrlStep_line {s : State} {q : Seq} (h : s.seq = some q) (hp : q.pos ≠ .accepted) (reply : Option BusReply) :
    State.ctrlStep reply s = lineStep q.pos reply s := by
  simp only [State.ctrlStep, h]

/-- Right after acceptance: the first line of the decoded command, or BAD_COMMAND (60_exceptions R241). -/
theorem State.ctrlStep_accepted {s : State} {q : Seq} (h : s.seq = some q) (hp : q.pos = .accepted) (reply : Option BusReply) :
    State.ctrlStep reply s = match decode q.word with
      | .ok i => lineStep (firstLine i) reply s
      | .error _ => s.complete .badCommand := by
  cases hd : decode q.word <;> simp [State.ctrlStep, h, hp, hd]

/-! ## One host access -/

/-- What a host access does: an error response, a read, or a write taken (20_memory R70 to R75). -/
theorem State.access_cases (s : State) (a : Access) :
    s.access a = s.respond .error ∨
      (∃ off size t, a = .read off size ∧ target s.params off size = some t ∧ s.access a = s.hostRead t) ∨
      ∃ off size v t, a = .write off size v ∧ target s.params off size = some t ∧
        s.access a = (s.hostWrite t v).respond .done := by
  cases a with
  | read off size =>
    cases h : target s.params off size with
    | none => left; simp [State.access, h]
    | some t => right; left; exact ⟨off, size, t, rfl, h, by simp [State.access, h]⟩
  | write off size v =>
    cases h : target s.params off size with
    | none => left; simp [State.access, h]
    | some t => right; right; exact ⟨off, size, v, t, rfl, h, by simp [State.access, h]⟩

/-- A read changes at most the record of responses and the count of draws (20_memory R76). -/
theorem State.hostRead_frame (s : State) (t : Target) :
    ∃ r n, s.hostRead t = { s with hostLog := s.hostLog ++ [r], draws := n } := by
  unfold State.hostRead
  split
  · exact ⟨_, _, rfl⟩
  · exact ⟨_, s.draws, rfl⟩

/-- While BUSY = 1 a write changes at most CTRL, DONE and OVR (20_memory R75, 10_state R31, R32). -/
theorem State.hostWrite_busy {s : State} (h : s.busy = true) (t : Target) (v : Word) :
    ∃ ie rt d o, s.hostWrite t v = { s with ie := ie, retries := rt, done := s.done && d, ovr := o } := by
  by_cases hd : droppedWhileBusy t = true
  · refine ⟨s.ie, s.retries, true, true, ?_⟩
    simp [State.hostWrite, h, hd]
  · have he : s.hostWrite t v = match t with
        | .reg .ctrl => s.writeCtrl v
        | .reg .status => s.writeStatus v
        | _ => s := by
      cases t with
      | entry b i => simp [droppedWhileBusy] at hd
      | reg r =>
        cases r <;> first
          | exact absurd rfl hd
          | simp [State.hostWrite, droppedWhileBusy]
    rw [he]
    split
    · exact ⟨v.getLsbD 0, v.extractLsb' 4 3, true, s.ovr, by simp [State.writeCtrl]⟩
    · exact ⟨s.ie, s.retries, !v.getLsbD 1, s.ovr && !v.getLsbD 2, rfl⟩
    · exact ⟨s.ie, s.retries, true, s.ovr, by simp⟩

/-- A host access to a busy controller: CTRL, DONE, OVR and the model's own record are all it can change (20_memory R74, R75,
R90). -/
theorem State.access_busy {s : State} (h : s.busy = true) (a : Access) :
    ∃ ie rt d o l n, s.access a =
      { s with ie := ie, retries := rt, done := s.done && d, ovr := o, hostLog := s.hostLog ++ [l], draws := n } := by
  rcases State.access_cases s a with he | ⟨_, _, t, _, _, he⟩ | ⟨_, _, v, t, _, _, he⟩
  · exact ⟨s.ie, s.retries, true, s.ovr, .error, s.draws, by rw [he]; simp [State.respond]⟩
  · obtain ⟨r, n, hr⟩ := State.hostRead_frame s t
    exact ⟨s.ie, s.retries, true, s.ovr, r, n, by rw [he, hr]; simp⟩
  · obtain ⟨ie, rt, d, o, hw⟩ := State.hostWrite_busy h t v
    exact ⟨ie, rt, d, o, .done, s.draws, by rw [he, hw]; rfl⟩

/-! ## One step of the machine -/

/-- Everything `step` can do: nothing, one move of an agent, or the run of the accepted command. -/
theorem step_cases (s : State) :
    (s.turns = [] ∧ step s = .next s) ∨
    (∃ t rest, s.turns = t :: rest ∧ step s = .next (State.advance t { s with turns := rest })) ∨
    ∃ reply rest q i, s.turns = .ctrl reply :: rest ∧ s.seq = some q ∧ decode q.word = .ok i ∧
      step s = .next (s.runCommand i) := by
  unfold step State.nextMove
  split
  · exact .inl ⟨‹_›, rfl⟩
  · next reply rest ht =>
    cases hq : s.seq with
    | none => exact .inr (.inl ⟨_, rest, ht, by simp [State.advance, State.ctrlStep]⟩)
    | some q =>
      cases hd : decode q.word with
      | ok i => exact .inr (.inr ⟨reply, rest, q, i, ht, rfl, hd, by simp [hd, exec_eq]⟩)
      | error e => exact .inr (.inl ⟨_, rest, ht, by simp [hd, State.advance]⟩)
  · next a rest ht => exact .inr (.inl ⟨_, rest, ht, rfl⟩)
  · next rest ht => exact .inr (.inl ⟨_, rest, ht, rfl⟩)

end Sys2Proof.Machine
end

