-- ==== Sys2Proof/Tests/Slice0.lean ====
section
/-! SUPPORT. The tests. Expected values are those of spec/95_test_vectors.md (named V…) or of the rule a comment names. The last
part shows, for every statement with hypotheses, a concrete state and operands that meet them all. -/

namespace Sys2Proof.Tests

-- One theorem after another: so many waiting at once for the kernel would each hold a thread.
set_option Elab.async false

open Sys2Proof.Machine

/-! ## Helpers -/

/-- The command's word accepted in s, with these moves to come. -/
def started (i : Instr) (s : State) (ts : List Turn) : State := { s.accept (encode i) with turns := ts }

/-- n controller steps, each with the reply r. -/
def steps (n : Nat) (r : BusReply) : List Turn := List.replicate n (.ctrl (some r))

/-- Everything granted and acknowledged, and these bytes delivered. -/
def delivering (v : List Byte) : BusReply := { start := .ok, rstart := .ok, byte := .ack, data := v }

def granting : BusReply := delivering []
def nacking : BusReply := { granting with byte := .nack }
def stealing : BusReply := { granting with byte := .lost }
def holding : BusReply := { granting with start := .held }

/-- The state a command's step leaves. -/
def after (i : Instr) (s : State) : State :=
  match exec i s with
  | .next t => t
  | _ => s

/-- The state one step leaves. -/
def stepped (s : State) : State :=
  match step s with
  | .next t => t
  | _ => s

/-- What the host got back last, after one access from s. -/
def response (s : State) (a : Access) : Option Response := (stepped { s with turns := [.host a] }).hostLog.getLast?

/-! ## Decoding: words written out from the fields of 30_encoding R95 to R99 (reserved, IDLE, WAKE_FIRST, reserved, SRC, OP) -/

theorem test_decode_crcDbuf : decode 0b0000000000000000000000_0_0_00_00_0001 = .ok .crcDbuf := rfl
theorem test_decode_crcTxbuf : decode 0b0000000000000000000000_0_0_00_01_0001 = .ok .crcTxbuf := rfl
theorem test_decode_crcRxbuf : decode 0b0000000000000000000000_0_0_00_10_0001 = .ok .crcRxbuf := rfl
theorem test_decode_marshal : decode 0b0000000000000000000000_0_0_00_00_0010 = .ok .marshal := rfl
theorem test_decode_unmarshal : decode 0b0000000000000000000000_0_0_00_00_0011 = .ok .unmarshal := rfl
theorem test_decode_busWrite : decode 0b0000000000000000000000_0_0_00_00_0100 = .ok .busWrite := rfl
theorem test_decode_busRead : decode 0b0000000000000000000000_0_0_00_00_0101 = .ok .busRead := rfl
theorem test_decode_resync : decode 0b0000000000000000000000_0_0_00_00_0110 = .ok .resync := rfl
theorem test_decode_execute : decode 0b0000000000000000000000_0_0_00_00_0111 = .ok (.execute false) := rfl
theorem test_decode_execute_wake : decode 0b0000000000000000000000_0_1_00_00_0111 = .ok (.execute true) := rfl
theorem test_decode_wake : decode 0b0000000000000000000000_0_0_00_00_1000 = .ok .wake := rfl
theorem test_decode_sleep : decode 0b0000000000000000000000_0_0_00_00_1001 = .ok (.sleep false) := rfl
theorem test_decode_sleep_idle : decode 0b0000000000000000000000_1_0_00_00_1001 = .ok (.sleep true) := rfl

/-- The illegal words of V2.11 are refused, each by the name of its clause of 30_encoding R111. -/
theorem test_decode_illegal :
    decode 0x00000000 = .error .reservedOp ∧ decode 0x0000000A = .error .reservedOp ∧ decode 0x0000000F = .error .reservedOp ∧
    decode 0x00000031 = .error .reservedSrc ∧ decode 0x00000012 = .error .straySrc ∧
    decode 0x00000108 = .error .strayWakeFirst ∧ decode 0x00000207 = .error .strayIdle ∧
    decode 0x00000041 = .error .reservedBits ∧ decode 0x00000081 = .error .reservedBits ∧
    decode 0x00000409 = .error .reservedBits ∧ decode 0x80000007 = .error .reservedBits := ⟨rfl, rfl, rfl, rfl, rfl, rfl, rfl, rfl, rfl, rfl, rfl⟩

theorem test_decodeTableWord_drops_bits_above : decodeTableWord 32 (0x100000000 + 8) = some .wake := by decide

/-! ## WellFormed: each check refuses an ill-formed term -/

theorem test_wellFormed_every_command : (Instr.execute true).wellFormed = true ∧ Instr.crcRxbuf.wellFormed = true := by decide
theorem test_legal_default : defaultParams.legal = true := by decide
theorem test_illegal_maxCmdSize :
    { defaultParams with maxCmdSize := 8 }.legal = false ∧ { defaultParams with maxCmdSize := 129 }.legal = false := by decide
theorem test_legal_maxCmdSize_edges :
    { defaultParams with maxCmdSize := 9 }.legal = true ∧ { defaultParams with maxCmdSize := 128 }.legal = true := by decide
theorem test_illegal_rxBufSize :
    { defaultParams with rxBufSize := 3 }.legal = false ∧ { defaultParams with rxBufSize := 129 }.legal = false := by decide

/-- A table without every named code, with a byte twice, with a nonzero SUCCESS byte, or with 0xC7 in it. -/
theorem test_illegal_tables :
    { defaultParams with statusTable := defaultParams.statusTable.tail }.legal = false ∧
    { defaultParams with statusTable := DeviceCode.named.map fun c => (0x00#8, c) }.legal = false ∧
    { defaultParams with statusTable := (0x01#8, .success) :: defaultParams.statusTable.tail }.legal = false ∧
    { defaultParams with statusTable := (0x00#8, .success) :: (0xC7#8, .boundaryError) :: defaultParams.statusTable.drop 2 }.legal
      = false := by decide

/-! ## CRC and frames -/

/-- V1.1, V1.2, V2.1. -/
theorem test_crc16 :
    crc16 [0x09, 0x11, 0x00, 0x00, 0x00, 0x00, 0x00] = [0x71, 0x81] ∧
    crc16 [0x09, 0x11, 0x40, 0x00, 0x00, 0x00, 0x00] = [0xEF, 0x82] ∧ crc16 [0x01] = [0x80, 0x05] ∧
    crc16 [0x80] = [0x83, 0x03] ∧ crc16 [0x06, 0x00, 0xDE, 0xAD] = [0xBF, 0xE2] := by decide +kernel

/-- V2.3.8: empty segments 1 and 3. -/
theorem test_marshalFrame_segments :
    marshalFrame defaultParams 0x01 0x00 0 0 0 2 0 1 [0xAA, 0xBB, 0x01] =
      some [0x0C, 0x01, 0x00, 0x00, 0x00, 0x00, 0x00, 0xAA, 0xBB, 0x01, 0x94, 0x9B] := by decide +kernel

/-- V2.3.4: PARAM1 and PARAM2 high byte first. -/
theorem test_marshalFrame_params :
    marshalFrame defaultParams 0x12 0x34 0xABCD 0xEF01 3 1 2 4 [1, 2, 3, 4, 5, 6, 7, 8, 9, 10] =
      some [0x13, 0x12, 0x34, 0xAB, 0xCD, 0xEF, 0x01, 1, 2, 3, 4, 5, 6, 7, 8, 9, 10, 0x26, 0x48] := by decide +kernel

/-- V2.4.1, V2.4.9, V2.4.11, V2.4.12. -/
theorem test_unmarshalFrame :
    unmarshalFrame [0x04, 0x00, 0x98, 0x03] 4 = .valid 0x00 ∧ unmarshalFrame [0x04, 0x00, 0x98, 0x04] 4 = .crcError ∧
    unmarshalFrame [0x05, 0x00, 0x1E, 0x00] 4 = .frameCountError ∧ unmarshalFrame [0x04, 0x00, 0x98] 3 = .frameShort := by
  decide +kernel

/-! ## One step of each command -/

/-- V2.2.1: the sleep prefix in DBUF. -/
def crcReady : State := { State.reset.setBufBytes .dbuf 0 [0x09, 0x11, 0x00, 0x00, 0x00, 0x00, 0x00] with crcLen := 7 }

theorem test_crcDbuf_known_vector :
    (after .crcDbuf (started .crcDbuf crcReady (steps 8 granting))).crc = 0x7181 ∧
    (after .crcDbuf (started .crcDbuf crcReady (steps 8 granting))).statusWord = 0x00000002 := by decide +kernel

/-- V2.2.5. -/
theorem test_crcDbuf_bad_length :
    (after .crcDbuf (started .crcDbuf { crcReady with crcLen := 56, crc := 0x7181 } (steps 8 granting))).result = .badLength ∧
    (after .crcDbuf (started .crcDbuf { crcReady with crcLen := 56, crc := 0x7181 } (steps 8 granting))).crc = 0x7181 := by
  decide +kernel

/-- V2.2.8: the residue. -/
theorem test_crcTxbuf_residue :
    (after .crcTxbuf (started .crcTxbuf
      { State.reset.setBufBytes .txbuf 0 [0x09, 0x11, 0x00, 0x00, 0x00, 0x00, 0x00, 0x71, 0x81] with crcLen := 9, crc := 0x1234 }
      (steps 8 granting))).crc = 0 := by decide +kernel

/-- V2.2.3 and V2.1: the empty prefix, and one byte of RXBUF. -/
theorem test_crcRxbuf_prefixes :
    (after .crcRxbuf (started .crcRxbuf { State.reset with crc := 0x1234 } (steps 8 granting))).crc = 0 ∧
    (after .crcRxbuf (started .crcRxbuf { State.reset.setBufByte .rxbuf 0 0x01 with crcLen := 1 } (steps 8 granting))).crc
      = 0x8005 := by decide +kernel

/-- V2.3.3. -/
theorem test_marshal_frame :
    (after .marshal (started .marshal { State.reset with opcode := 0x10, param2 := 0x0010 } (steps 8 granting))).bufSlice .txbuf 0 9
      = [0x09, 0x10, 0x00, 0x00, 0x00, 0x00, 0x10, 0x09, 0xE1] ∧
    (after .marshal (started .marshal { State.reset with opcode := 0x10, param2 := 0x0010 } (steps 8 granting))).frameLen = 9 := by
  decide +kernel

/-- V2.3.7: the sum 1020 does not wrap. -/
theorem test_marshal_no_wrap :
    (after .marshal (started .marshal { State.reset with dlen := 0xFFFFFFFF, frameLen := 7 } (steps 8 granting))).result
      = .frameTooLarge ∧
    (after .marshal (started .marshal { State.reset with dlen := 0xFFFFFFFF, frameLen := 7 } (steps 8 granting))).frameLen = 7 := by
  decide +kernel

/-- V2.4.2: 0xC7 is unknown, never a success. -/
theorem test_unmarshal_unknown :
    (after .unmarshal (started .unmarshal { State.reset.setBufBytes .rxbuf 0 [0x04, 0xC7, 0x1A, 0x92] with rxLen := 4 }
      (steps 8 granting))).result = .unknownDeviceError ∧
    (after .unmarshal (started .unmarshal { State.reset.setBufBytes .rxbuf 0 [0x04, 0xC7, 0x1A, 0x92] with rxLen := 4 }
      (steps 8 granting))).rsp.word = 0x80000EC7 := by decide +kernel

/-- V2.4.7. -/
theorem test_unmarshal_payload :
    (after .unmarshal (started .unmarshal
      { State.reset.setBufBytes .rxbuf 0 [0x06, 0x00, 0xDE, 0xAD, 0xBF, 0xE2] with rxLen := 6 } (steps 8 granting))).rsp.word
      = 0x80020000 := by decide +kernel

/-- V2.5.5: an empty payload to word address 0. -/
theorem test_busWrite_empty :
    (after .busWrite (started .busWrite State.reset (steps 25 granting))).trace =
      [.start .ok, .wrbyte 0xA0 .ack, .wrbyte 0x00 .ack, .wrbyte 0x00 .ack, .stop] ∧
    (after .busWrite (started .busWrite State.reset (steps 25 granting))).statusWord = 0x00000002 := by decide +kernel

/-- V2.5.2. -/
theorem test_busWrite_nack :
    (after .busWrite (started .busWrite State.reset (steps 10 nacking))).trace =
      [.start .ok, .wrbyte 0xA0 .nack, .stop] ∧
    (after .busWrite (started .busWrite State.reset (steps 10 nacking))).statusWord = 0x00000072 := by decide +kernel

/-- V2.6.1. -/
theorem test_busRead_stores :
    (after .busRead (started .busRead { State.reset with waddr := 0xFE00, rdLen := 4 }
      (steps 35 (delivering [0x04, 0x00, 0x98, 0x03])))).bufSlice .rxbuf 0 4 = [0x04, 0x00, 0x98, 0x03] ∧
    (after .busRead (started .busRead { State.reset with waddr := 0xFE00, rdLen := 4 }
      (steps 35 (delivering [0x04, 0x00, 0x98, 0x03])))).rxLen = 4 := by decide +kernel

/-- V2.6.2: a short read. -/
theorem test_busRead_short :
    (after .busRead (started .busRead { State.reset.setBufByte .rxbuf 0 0x77 with rdLen := 4, rxLen := 9 }
      (steps 35 (delivering [0x04, 0x00, 0x98])))).statusWord = 0x00000072 ∧
    (after .busRead (started .busRead { State.reset.setBufByte .rxbuf 0 0x77 with rdLen := 4, rxLen := 9 }
      (steps 35 (delivering [0x04, 0x00, 0x98])))).bufByte .rxbuf 0 = 0x77 := by decide +kernel

/-- V2.7.1. -/
theorem test_resync_frees :
    (after .resync (started .resync { State.reset with tstate := .failed } (steps 8 granting))).trace =
      [.start .ok, .dummy 0xFF, .stop] ∧
    (after .resync (started .resync { State.reset with tstate := .failed } (steps 8 granting))).statusWord = 0x00000002 := by
  decide +kernel

/-- V2.7.4. -/
theorem test_resync_held_twice :
    (after .resync (started .resync State.reset (steps 8 holding))).trace = [.start .held, .start .held] ∧
    (after .resync (started .resync State.reset (steps 8 holding))).statusWord = 0x00000072 := by decide +kernel

/-- V2.8.1: OPCODE = MODE = 02. -/
def execReady : State := { State.reset with opcode := 0x02, mode := 0x02 }

theorem test_execute_success :
    (after (.execute false) (started (.execute false) execReady
      (steps 80 (delivering [0x04]) ++ steps 50 (delivering [0x00, 0x98, 0x03])))).statusWord = 0x00001002 ∧
    (after (.execute false) (started (.execute false) execReady
      (steps 80 (delivering [0x04]) ++ steps 50 (delivering [0x00, 0x98, 0x03])))).rsp.word = 0x80000000 := by decide +kernel

/-- V2.8.13: four attempts, the bus resynced after each. -/
theorem test_execute_retries :
    (after (.execute false) (started (.execute false) execReady (steps 72 nacking))).statusWord = 0x00004002 ∧
    (after (.execute false) (started (.execute false) execReady (steps 72 nacking))).result = .commFail := by decide +kernel

/-- V2.9: WAKE completes with OK and leaves TSTATE. -/
theorem test_wake :
    (after .wake (started .wake State.reset (steps 3 granting))).statusWord = 0x00000002 ∧
    (after .wake (started .wake { State.reset with tstate := .failed } (steps 3 granting))).statusWord = 0x00000072 := by
  decide +kernel

/-- V2.10: the idle frame. -/
theorem test_sleep_idle :
    (after (.sleep true) (started (.sleep true) State.reset (steps 60 granting))).bufSlice .txbuf 0 9 =
      [0x09, 0x11, 0x40, 0x00, 0x00, 0x00, 0x00, 0xEF, 0x82] ∧
    (after (.sleep true) (started (.sleep true) State.reset (steps 60 granting))).statusWord = 0x00001002 := by decide +kernel

/-- A word no row matches completes with BAD_COMMAND in the step after acceptance (V2.11). -/
theorem test_illegal_word :
    (stepped { State.reset.accept 0x00000041 with turns := [.ctrl none] }).result = .badCommand ∧
    (stepped { State.reset.accept 0x00000041 with turns := [.ctrl none] }).statusWord = 0x00000002 := by decide +kernel

/-! ## The host side (V2.12) -/

theorem test_reset_reads :
    response State.reset (.read 0x000 4) = some (.data 0x30) ∧ response State.reset (.read 0x00C 4) = some (.data 0xFF) ∧
    response State.reset (.read 0x018 4) = some (.data 0xFE00) ∧ response State.reset (.read 0x04C 4) = some (.data 0xF00) := by
  decide +kernel

/-- A byte access, a misaligned one, an unmapped offset, and the first entry past DBUF (20_memory R70, R71). -/
theorem test_illegal_accesses :
    response State.reset (.read 0x000 1) = some .error ∧ response State.reset (.read 0x002 4) = some .error ∧
    response State.reset (.read 0x050 4) = some .error ∧ response State.reset (.write 0x2DC 4 1) = some .error := by
  decide +kernel

/-! ## Every statement's hypotheses are met together by something -/

/-- WAKE accepted, its turn next. -/
def waking : State := started .wake State.reset (steps 3 granting)

theorem hyp_StepRunsTheAcceptedCommand :
    waking.turns = .ctrl (some granting) :: steps 2 granting ∧ waking.seq = some ⟨0x00000008, 3, .accepted⟩ ∧
    decode 0x00000008 = .ok .wake := ⟨rfl, rfl, rfl⟩

theorem hyp_PlacedWordRunsNext : decodeTableWord 32 0x00000107 = some (.execute true) := rfl

theorem hyp_IllegalWordOnlyCompletesWithBadCommand :
    { State.reset.accept 0x00000041 with turns := [.ctrl none] }.turns = .ctrl none :: [] ∧
    { State.reset.accept 0x00000041 with turns := [.ctrl none] }.seq = some ⟨0x00000041, 3, .accepted⟩ ∧
    decode 0x00000041 = .error .reservedBits := ⟨rfl, rfl, rfl⟩

theorem hyp_CmdWriteIsAcceptedWhenIdle :
    { State.reset with turns := [.host (.write 0x008 4 0x00000008)] }.turns = .host (.write 0x008 4 0x00000008) :: [] ∧
    State.reset.busy = false := ⟨rfl, rfl⟩

theorem hyp_DecodeAndEncodeAgree : decode 0x00000209 = .ok (.sleep true) := rfl

theorem hyp_CrcResidueLinearityAndLeadingZero : [0x01, 0x80].length = [0xFF, 0x00].length := rfl

/-- At the buffer's size and one above, for each source. -/
theorem hyp_CrcCommandsComputeThePrefixCrc :
    ∀ x ∈ [(Instr.crcDbuf, Buf.dbuf, 55#8), (.crcTxbuf, .txbuf, 64#8), (.crcRxbuf, .rxbuf, 64#8)],
      (x.1, x.2.1) ∈ [(Instr.crcDbuf, Buf.dbuf), (.crcTxbuf, .txbuf), (.crcRxbuf, .rxbuf)] ∧
      (started x.1 { State.reset with crcLen := x.2.2 } (steps 8 granting)).atStart = true ∧
      (steps 8 granting).all Turn.isCtrl = true ∧ 8 ≤ (steps 8 granting).length ∧
      x.2.2.toNat ≤ x.2.1.size State.reset.params ∧ x.2.1.size State.reset.params < (x.2.2 + 1).toNat := by decide

/-- The frame of V2.3.1, which EXECUTE's and SLEEP's witnesses use too. -/
def sleepBytes : List Byte := [0x09, 0x11, 0x00, 0x00, 0x00, 0x00, 0x00, 0x71, 0x81]

theorem hyp_MarshalledFramesAreSelfConsistent :
    defaultParams.legal = true ∧ defaultParams.dbufSize ≤ (List.replicate 55 0x00#8).length ∧
    marshalFrame defaultParams 0x11 0x00 0 0 0 0 0 0 (List.replicate 55 0x00#8) = some sleepBytes := by decide +kernel

theorem hyp_SegmentSplitDoesNotChangeTheFrame :
    (3#8).toNat + (1#8).toNat + (2#8).toNat + (4#8).toNat = (10#8).toNat + (0#8).toNat + (0#8).toNat + (0#8).toNat ∧
    (List.replicate 12 0x05#8).take 10 = (List.replicate 11 0x05#8).take 10 := by decide

/-- A payload of DBUF_SIZE bytes gives a frame, and one of one byte more gives none. -/
theorem hyp_MarshalStoresTheFrame :
    (started .marshal State.reset (steps 8 granting)).atStart = true ∧ State.reset.params.legal = true ∧
    (steps 8 granting).all Turn.isCtrl = true ∧ 8 ≤ (steps 8 granting).length ∧
    (started .marshal { State.reset with opcode := 0x11 } (steps 8 granting)).commandFrame = some sleepBytes ∧
    (started .marshal { State.reset with dlen := 55 } (steps 8 granting)).commandFrame.isSome = true ∧
    (started .marshal { State.reset with dlen := 56 } (steps 8 granting)).commandFrame = none := by decide +kernel

theorem hyp_UnmarshalDecodesTheReceivedFrame :
    (started .unmarshal { State.reset with rxLen := 64 } (steps 8 granting)).atStart = true ∧
    (steps 8 granting).all Turn.isCtrl = true ∧ 8 ≤ (steps 8 granting).length ∧
    (64#8).toNat ≤ State.reset.params.rxBufSize ∧ State.reset.params.rxBufSize < (65#8).toNat := by decide

theorem hyp_UnmarshalOfMarshalRecoversThePayload :
    defaultParams.legal = true ∧ defaultParams.dbufSize ≤ (List.replicate 55 0x00#8).length ∧
    marshalFrame defaultParams 0x11 0x00 0 0 0 0 0 0 (List.replicate 55 0x00#8) = some sleepBytes := by decide +kernel

theorem hyp_StatusMappingIsTotalAndUnknownIsNeverOk : defaultParams.legal = true := by decide

theorem hyp_BusWriteSendsThePayload :
    (started .busWrite { State.reset with wrLen := 64 } (steps 217 granting)).atStart = true ∧ State.reset.tstate = .idle ∧
    (64#8).toNat ≤ State.reset.params.maxCmdSize ∧ (steps 217 granting).all (Turn.replies BusReply.grants) = true ∧
    3 * (64#8).toNat + 25 ≤ (steps 217 granting).length := by decide +kernel

theorem hyp_BusWriteFailsOnNackLostAndHeld :
    (started .busWrite { State.reset with wrLen := 64 } (steps 10 nacking)).atStart = true ∧ State.reset.tstate = .idle ∧
    (64#8).toNat ≤ State.reset.params.maxCmdSize ∧
    ∀ x ∈ [(BusReply.nacks, nacking), (BusReply.steals, stealing), (BusReply.holds, holding)],
      10 ≤ (steps 10 x.2).length ∧ (steps 10 x.2).all (Turn.replies x.1) = true := by decide

/-- BUS_WRITEs that complete: with the word address's first byte not acknowledged, and with the last payload byte lost. -/
theorem hyp_BusWriteFailsOnNackLostAndHeld_anyAnswers :
    ∀ ts ∈ [steps 9 granting ++ steps 10 nacking, steps 18 granting ++ steps 10 stealing],
      (started .busWrite { State.reset with wrLen := 2 } ts).atStart = true ∧ State.reset.tstate = .idle ∧
      (2#8).toNat ≤ State.reset.params.maxCmdSize ∧ ts.all Turn.isCtrl = true ∧
      (after .busWrite (started .busWrite { State.reset with wrLen := 2 } ts)).seq = none ∧
      (after .busWrite (started .busWrite { State.reset with wrLen := 2 } ts)).result = .commFail := by decide +kernel

theorem hyp_BusReadStoresTheDeliveredBytes :
    ∀ n ∈ [1#8, 64#8],
      (started .busRead { State.reset with rdLen := n } (steps 35 (delivering (List.replicate n.toNat 0x5A)))).atStart = true ∧
      State.reset.tstate = .idle ∧ (List.replicate n.toNat 0x5A#8).length = n.toNat ∧ 1 ≤ n.toNat ∧
      n.toNat ≤ State.reset.params.rxBufSize ∧
      (steps 35 (delivering (List.replicate n.toNat 0x5A))).all
        (Turn.replies (BusReply.delivers (List.replicate n.toNat 0x5A))) = true ∧
      35 ≤ (steps 35 (delivering (List.replicate n.toNat 0x5A))).length := by decide +kernel

theorem hyp_BusReadRejectsEveryOtherByteCount :
    ∀ v ∈ [[], [0x01#8, 0x02#8]],
      (started .busRead { State.reset with rdLen := 1 } (steps 35 (delivering v))).atStart = true ∧
      State.reset.tstate = .idle ∧ v.length ≠ (1#8).toNat ∧ 1 ≤ (1#8).toNat ∧ (1#8).toNat ≤ State.reset.params.rxBufSize ∧
      (steps 35 (delivering v)).all (Turn.replies (BusReply.delivers v)) = true ∧ 35 ≤ (steps 35 (delivering v)).length := by
  decide

/-- BUS_READs that complete: with the Start held, with the repeated Start lost, and with one byte delivered. -/
theorem hyp_BusReadRejectsEveryOtherByteCount_anyAnswers :
    ∀ x ∈ [(holding, ResultCode.commFail), ({ granting with rstart := .lost }, .commFail), (delivering [0x5A], .ok)],
      (started .busRead { State.reset with rdLen := 1 } (steps 35 x.1)).atStart = true ∧ State.reset.tstate = .idle ∧
      1 ≤ (1#8).toNat ∧ (1#8).toNat ≤ State.reset.params.rxBufSize ∧ (steps 35 x.1).all Turn.isCtrl = true ∧
      (after .busRead (started .busRead { State.reset with rdLen := 1 } (steps 35 x.1))).seq = none ∧
      (after .busRead (started .busRead { State.reset with rdLen := 1 } (steps 35 x.1))).result = x.2 := by decide +kernel

theorem hyp_BusCommandsRefuseBadLengths :
    (started .busWrite { State.reset with wrLen := 65, rdLen := 0 } (steps 4 granting)).atStart = true ∧
    State.reset.tstate = .idle ∧ (steps 4 granting).all Turn.isCtrl = true ∧ 4 ≤ (steps 4 granting).length ∧
    State.reset.params.maxCmdSize < (65#8).toNat ∧ (0#8).toNat = 0 ∧ State.reset.params.rxBufSize < (65#8).toNat := by decide

theorem hyp_ResyncFreesTheBusOrFails :
    (started .resync State.reset (steps 8 granting)).atStart = true ∧ 8 ≤ (steps 8 granting).length ∧
    (steps 8 granting).all (Turn.replies BusReply.grants) = true ∧ 8 ≤ (steps 8 holding).length ∧
    (steps 8 holding).all (Turn.replies BusReply.holds) = true := by decide

/-- V2.7.3: a RESYNC held once and then granted. -/
theorem hyp_ResyncFreesTheBusOrFails_heldOnce :
    (started .resync State.reset (steps 2 holding ++ steps 8 granting)).atStart = true ∧
    (steps 2 holding ++ steps 8 granting).all Turn.isCtrl = true ∧
    (after .resync (started .resync State.reset (steps 2 holding ++ steps 8 granting))).seq = none ∧
    (after .resync (started .resync State.reset (steps 2 holding ++ steps 8 granting))).trace =
      [.start .held, .start .ok, .dummy 0xFF, .stop] := by decide +kernel

theorem hyp_WakeSendsOnePulse :
    waking.atStart = true ∧ waking.turns.all Turn.answered = true ∧ 3 ≤ waking.turns.length := by decide

theorem hyp_SleepSendsTheOneWayFrame :
    (started (.sleep true) State.reset (steps 60 granting)).atStart = true ∧ State.reset.params.legal = true ∧
    State.reset.tstate = .idle ∧ (steps 60 granting).all (Turn.replies BusReply.grants) = true ∧
    60 ≤ (steps 60 granting).length := by decide

/-- EXECUTE accepted with these moves to come. -/
def executing (ts : List Turn) : State := started (.execute false) { State.reset with opcode := 0x11 } ts

/-- Count 4, the least, and Count 64 = RESP_LEN, the most, in CONTINUE mode. -/
theorem hyp_ExecuteRunsOneExchange :
    ∀ c ∈ [4#8, 64#8], ∀ r ∈ [c :: List.replicate (c.toNat - 1) 0x07#8],
      (executing (steps 80 (delivering [c]) ++ steps 50 (delivering (r.drop 1)))).atStart = true ∧
      State.reset.params.legal = true ∧ State.reset.tstate = .idle ∧ 4 ≤ c.toNat ∧ c.toNat ≤ State.reset.respLen.toNat ∧
      State.reset.respLen.toNat ≤ State.reset.params.rxBufSize ∧
      (executing []).commandFrame = some sleepBytes ∧ r.length = c.toNat ∧ r.head? = some c ∧
      (steps 80 (delivering [c])).all (Turn.replies (BusReply.delivers [c])) = true ∧
      (steps 50 (delivering (r.drop 1))).all
        (Turn.replies (BusReply.delivers (r.drop (c.toNat - bodyLength State.reset.params c)))) = true ∧
      3 * sleepBytes.length + 52 ≤ (steps 80 (delivering [c])).length ∧
      (steps 80 (delivering [c])).length ≤ 3 * sleepBytes.length + 79 ∧ 50 ≤ (steps 50 (delivering (r.drop 1))).length := by
  decide +kernel

/-- The same in RESTART mode, whose body read delivers the Count byte again. -/
theorem hyp_ExecuteRunsOneExchange_restart :
    ∀ r ∈ [[0x04#8, 0x00#8, 0x98#8, 0x03#8]], ∀ p ∈ [{ defaultParams with respReadMode := .restart }],
      ({ executing (steps 80 (delivering [0x04]) ++ steps 50 (delivering r)) with params := p }).atStart = true ∧
      p.legal = true ∧ r.drop ((0x04#8).toNat - bodyLength p 0x04) = r ∧
      (steps 50 (delivering r)).all (Turn.replies (BusReply.delivers r)) = true := by decide +kernel

/-- One state for each of SEQ_ERROR, BAD_LENGTH below and above the range, and FRAME_TOO_LARGE. -/
theorem hyp_ExecuteChecksBeforeTheBus :
    ∀ x ∈ [({ State.reset with tstate := .failed }, ResultCode.seqError), ({ State.reset with respLen := 3 }, .badLength),
        ({ State.reset with respLen := 65 }, .badLength), ({ State.reset with dlen := 56 }, .frameTooLarge)],
      (started (.execute true) x.1 (steps 8 granting)).atStart = true ∧ (steps 8 granting).all Turn.isCtrl = true ∧
      8 ≤ (steps 8 granting).length ∧
      x.2 = (if x.1.tstate = .failed then .seqError
        else if x.1.respLen.toNat < 4 ∨ x.1.params.rxBufSize < x.1.respLen.toNat then .badLength
        else if x.1.commandFrame = none then .frameTooLarge else .none) ∧ x.2 ≠ .none := by decide +kernel

/-- Count 3, and Count RESP_LEN + 1. -/
theorem hyp_ExecuteChecksTheCountByte :
    ∀ c ∈ [3#8, 65#8],
      (executing (steps 97 (delivering [c]))).atStart = true ∧ State.reset.params.legal = true ∧ State.reset.tstate = .idle ∧
      4 ≤ State.reset.respLen.toNat ∧ State.reset.respLen.toNat ≤ State.reset.params.rxBufSize ∧
      (executing []).commandFrame = some sleepBytes ∧ (c.toNat < 4 ∨ State.reset.respLen.toNat < c.toNat) ∧
      (steps 97 (delivering [c])).all (Turn.replies (BusReply.delivers [c])) = true ∧
      3 * sleepBytes.length + 70 ≤ (steps 97 (delivering [c])).length := by decide +kernel

theorem hyp_ExecuteReadFailureIsNotRetried :
    ∀ v ∈ [[], [0x04#8, 0x00#8]],
      (executing (steps 97 (delivering v))).atStart = true ∧ State.reset.params.legal = true ∧ State.reset.tstate = .idle ∧
      4 ≤ State.reset.respLen.toNat ∧ State.reset.respLen.toNat ≤ State.reset.params.rxBufSize ∧
      (executing []).commandFrame = some sleepBytes ∧ v.length ≠ 1 ∧
      (steps 97 (delivering v)).all (Turn.replies (BusReply.delivers v)) = true ∧
      3 * sleepBytes.length + 70 ≤ (steps 97 (delivering v)).length := by decide +kernel

/-- EXECUTEs that complete: a write that succeeds at the second attempt (then a count read of one byte, 03), and a RESTART body read
whose first byte is not the Count. -/
theorem hyp_ExecuteReadFailureIsNotRetried_anyAnswers :
    ∀ x ∈ [(defaultParams, steps 20 nacking ++ steps 120 (delivering [0x03]), 2#4, ResultCode.frameShort),
        ({ defaultParams with respReadMode := .restart },
          steps 80 (delivering [0x04]) ++ steps 50 (delivering [0x05, 0x00, 0x98, 0x03]), 1#4, .frameCountError)],
      { executing x.2.1 with params := x.1 }.atStart = true ∧ x.1.legal = true ∧ State.reset.tstate = .idle ∧
      4 ≤ State.reset.respLen.toNat ∧ State.reset.respLen.toNat ≤ x.1.rxBufSize ∧
      { executing x.2.1 with params := x.1 }.commandFrame = some sleepBytes ∧ x.2.1.all Turn.isCtrl = true ∧
      (after (.execute false) { executing x.2.1 with params := x.1 }).seq = none ∧
      (after (.execute false) { executing x.2.1 with params := x.1 }).attempts = x.2.2.1 ∧
      (after (.execute false) { executing x.2.1 with params := x.1 }).result = x.2.2.2 := by decide +kernel

/-- SLEEP with RETRIES = 7, and EXECUTE with RETRIES = 0. -/
theorem hyp_WriteRetryExhaustsItsAttempts :
    (started (.sleep false) { State.reset with retries := 7 } (steps 124 nacking)).atStart = true ∧
    (started (.execute true) { State.reset with retries := 0, opcode := 0x11 } (steps 33 nacking)).atStart = true ∧
    State.reset.params.legal = true ∧ State.reset.tstate = .idle ∧ sleepFrame State.reset.params false = sleepBytes ∧
    (executing []).commandFrame = some sleepBytes ∧ 4 ≤ State.reset.respLen.toNat ∧
    State.reset.respLen.toNat ≤ State.reset.params.rxBufSize ∧
    (steps 124 nacking).all (Turn.replies BusReply.nacks) = true ∧ 20 + 13 * (1 + 7) ≤ (steps 124 nacking).length ∧
    (started (.sleep false) { State.reset with retries := 7 } []).snapRetries = 7 ∧
    (started (.execute true) { State.reset with retries := 0 } []).snapRetries = 0 := by decide +kernel

/-- A SLEEP that completes with OK at its second attempt. -/
theorem hyp_WriteRetryExhaustsItsAttempts_anyAnswers :
    (started (.sleep false) State.reset (steps 17 nacking ++ steps 60 granting)).atStart = true ∧
    State.reset.params.legal = true ∧ State.reset.tstate = .idle ∧
    (steps 17 nacking ++ steps 60 granting).all Turn.isCtrl = true ∧
    (after (.sleep false) (started (.sleep false) State.reset (steps 17 nacking ++ steps 60 granting))).seq = none ∧
    (after (.sleep false) (started (.sleep false) State.reset (steps 17 nacking ++ steps 60 granting))).statusWord
      = 0x00002002 := by decide +kernel

theorem hyp_HeldResyncEndsTheRetry :
    (started (.sleep false) State.reset (steps 30 holding)).atStart = true ∧ (executing (steps 30 holding)).atStart = true ∧
    State.reset.params.legal = true ∧ State.reset.tstate = .idle ∧ sleepFrame State.reset.params false = sleepBytes ∧
    (executing []).commandFrame = some sleepBytes ∧ 4 ≤ State.reset.respLen.toNat ∧
    State.reset.respLen.toNat ≤ State.reset.params.rxBufSize ∧
    (steps 30 holding).all (Turn.replies BusReply.holds) = true ∧ 30 ≤ (steps 30 holding).length := by decide +kernel

theorem hyp_NoTransferWhileFailed :
    ∀ i ∈ [Instr.busWrite, .busRead, .execute false, .execute true, .sleep false, .sleep true],
      (started i { State.reset with tstate := .failed } (steps 4 granting)).atStart = true ∧
      (started i { State.reset with tstate := .failed } (steps 4 granting)).tstate = .failed ∧
      (steps 4 granting).all Turn.isCtrl = true ∧ 4 ≤ (steps 4 granting).length := by decide

/-- The four invariants hold of WAKE just accepted, and its step answers. -/
theorem hyp_StepKeepsControlInvariant : waking.controlOk = true ∧ step waking = .next (stepped waking) := ⟨by decide, rfl⟩
theorem hyp_StepKeepsAttemptsInvariant :
    waking.controlOk = true ∧ waking.attemptsOk = true ∧ step waking = .next (stepped waking) := ⟨by decide, by decide, rfl⟩
theorem hyp_StepKeepsMemoryCanonical : waking.memoryOk = true ∧ step waking = .next (stepped waking) := ⟨by decide, rfl⟩
theorem hyp_StepKeepsRspInvariant : waking.rspOk = true ∧ step waking = .next (stepped waking) := ⟨by decide, rfl⟩

theorem hyp_EveryCommandCompletesWhenAnswered :
    (executing (steps 936 nacking)).atStart = true ∧ (executing (steps 936 nacking)).busy = true ∧
    State.reset.params.legal = true ∧ (steps 936 nacking).all Turn.notReset = true ∧
    (executing (steps 936 nacking)).stepBound ≤ ((steps 936 nacking).filter Turn.answered).length := by decide +kernel

/-- WAKE accepted, a host write to OPCODE and a host read of STATUS coming while it runs. -/
def disturbed : State :=
  started .wake State.reset ([.ctrl none, .host (.write 0x01C 4 5), .host (.read 0x004 4)] ++ steps 3 granting)

theorem hyp_HostAccessesDoNotDisturbARunningCommand :
    disturbed.atStart = true ∧ disturbed.busy = true ∧ disturbed.done = false ∧ disturbed.turns.all Turn.notReset = true := by
  decide

theorem hyp_InputsAreStableWhileBusy :
    disturbed.params.legal = true ∧ disturbed.busy = true ∧ disturbed.turns.all Turn.notReset = true ∧
    disturbed.atStart = true ∧ exec .wake disturbed = .next (after .wake disturbed) :=
  ⟨by decide, by decide, by decide, by decide, rfl⟩

theorem hyp_CommandsWriteOnlyTheirOutputs :
    disturbed.busy = true ∧ disturbed.turns.all Turn.notReset = true ∧ disturbed.atStart = true ∧
    exec .wake disturbed = .next (after .wake disturbed) := ⟨by decide, by decide, by decide, rfl⟩

/-- UNMARSHAL of the empty frame, which completes with FRAME_SHORT. -/
def unmarshalling : State := started .unmarshal State.reset (steps 8 granting)

theorem hyp_DeviceAndLinkResultsAreNeverConflated :
    Instr.unmarshal ∈ [Instr.unmarshal, .execute false, .execute true] ∧ unmarshalling.atStart = true ∧
    unmarshalling.busy = true ∧ unmarshalling.turns.all Turn.notReset = true ∧
    exec .unmarshal unmarshalling = .next (after .unmarshal unmarshalling) ∧ (after .unmarshal unmarshalling).seq = none :=
  ⟨by decide, by decide, by decide, by decide, rfl, by decide +kernel⟩

/-- EXECUTE whose exchange runs to a valid frame (V2.8.1). -/
def exchanging : State :=
  started (.execute false) execReady (steps 80 (delivering [0x04]) ++ steps 50 (delivering [0x00, 0x98, 0x03]))

theorem hyp_DeviceAndLinkResultsAreNeverConflated_valid :
    exchanging.atStart = true ∧ exchanging.busy = true ∧ exchanging.turns.all Turn.notReset = true ∧
    (after (.execute false) exchanging).seq = none ∧ (after (.execute false) exchanging).rsp.valid = true := by decide +kernel

theorem hyp_OnlyResyncLeavesFailed :
    Instr.wake ≠ .resync ∧ { waking with tstate := .failed }.atStart = true ∧ { waking with tstate := .failed }.busy = true ∧
    { waking with tstate := .failed }.tstate = .failed ∧ waking.turns.all Turn.notReset = true ∧
    exec .wake { waking with tstate := .failed } = .next (after .wake { waking with tstate := .failed }) :=
  ⟨by decide, by decide, by decide, by decide, by decide, rfl⟩

theorem hyp_UnansweredBusActionHangs :
    (started .resync State.reset [.ctrl none, .ctrl none]).atStart = true ∧
    (started .resync State.reset [.ctrl none, .ctrl none]).busy = true ∧
    (started .resync State.reset [.ctrl none, .ctrl none]).done = false ∧
    [Turn.ctrl none, .ctrl none].all (fun x => x.notReset && !x.answered) = true ∧
    2 ≤ ([Turn.ctrl none, .ctrl none].filter Turn.isCtrl).length := by decide

/-- A BUS_WRITE at its address byte, an EXECUTE in its body read's wrong-length STOP, and a SLEEP in its resync: each issues an
action. -/
theorem hyp_UnansweredBusActionHangs_everyLine :
    ∀ x ∈ [(Pos.busWrite (.transfer (.addr .send)), Action.wrbyte 0xA0),
        (.execute true (.readBody 0x04 (.lenCheck [])), .stop), (.sleep false (.write ⟨1, .resync .dummy⟩), .dummy 0xFF)],
      { waking with seq := some ⟨0, 3, x.1⟩ }.actionAt x.1 = some x.2 ∧ waking.busy = true ∧ waking.done = false ∧
      [Turn.ctrl none].all (fun y => y.notReset && !y.answered) = true ∧
      1 ≤ ([Turn.ctrl none].filter Turn.isCtrl).length := by decide

theorem hyp_IllegalAccessChangesNothing :
    (Access.read 0x050 4 = .read 0x050 4) ∧ target State.reset.params 0x050 4 = none ∧
    target State.reset.params 0x000 1 = none ∧ target State.reset.params 0x002 4 = none ∧
    target State.reset.params 0x2DC 4 = none ∧
    { State.reset with turns := [.host (.read 0x050 4)] }.turns = .host (.read 0x050 4) :: [] := by decide

theorem hyp_MappedOffsetsAreTheRegistersAndBufferEntries :
    defaultParams.legal = true ∧ (target defaultParams 0x04C 4).isSome = true ∧ (target defaultParams 0x6FC 4).isSome = true := by
  decide

/-- A busy state with one host write to come. -/
def busyWriting (off : Nat) : State := started .wake State.reset [.host (.write off 4 0xFFFFFFFF)]

theorem hyp_BusyWritesAreDroppedAndSetOvr :
    (∀ off ∈ [0x000, 0x004, 0x008, 0x010, 0x03C, 0x044, 0x200, 0x6FC],
      (busyWriting off).params.legal = true ∧ (busyWriting off).busy = true ∧
      (busyWriting off).turns = .host (.write off 4 0xFFFFFFFF) :: []) ∧
    (∀ off ∈ [0x008, 0x010, 0x03C, 0x044], off % 4 = 0 ∧ (off = 0x008 ∨ (0x010 ≤ off ∧ off ≤ 0x03C) ∨ off = 0x044)) ∧
    (0 < Buf.dbuf.size defaultParams ∧ 0x200 = Buf.dbuf.offset 0) ∧
    (63 < Buf.rxbuf.size defaultParams ∧ 0x6FC = Buf.rxbuf.offset 63) := by decide

theorem hyp_CtrlAndStatusWritesTakeEffectAnyTime :
    (busyWriting 0x000).turns = .host (.write 0x000 4 0xFFFFFFFF) :: [] ∧
    (busyWriting 0x004).turns = .host (.write 0x004 4 0xFFFFFFFF) :: [] := by decide

theorem hyp_ReadOnlyRegistersIgnoreWrites :
    ∀ off ∈ [0x00C, 0x040, 0x048, 0x04C], (busyWriting off).turns = .host (.write off 4 0xFFFFFFFF) :: [] := by decide

theorem hyp_WrittenRegistersAndEntriesReadBack :
    State.reset.params.legal = true ∧ State.reset.busy = false ∧
    (0x010, 0x7F#32) ∈ [(0x000, 0x71#32), (0x010, 0x7F#32), (0x014, 0xFFFF#32)] ∧
    (63 < Buf.txbuf.size State.reset.params ∧ 0x4FC = Buf.txbuf.offset 63) := by decide

theorem hyp_WrittenRegistersAndEntriesReadBack_frame :
    { State.reset with turns := [.host (.write 0x044 4 0x1FF)] }.turns = .host (.write 0x044 4 0x1FF) :: [] ∧
    { State.reset with turns := [.host (.write 0x6FC 4 0x1FF)] }.turns = .host (.write (Buf.rxbuf.offset 63) 4 0x1FF) :: [] ∧
    State.reset.busy = false ∧ State.reset.params.legal = true ∧ 63 < Buf.rxbuf.size State.reset.params := by decide

theorem hyp_ReadsHaveNoSideEffect :
    { State.reset with turns := [.host (.read 0x004 4)] }.turns = .host (.read 0x004 4) :: [] ∧
    step { State.reset with turns := [.host (.read 0x004 4)] } =
      .next (stepped { State.reset with turns := [.host (.read 0x004 4)] }) := ⟨rfl, rfl⟩

theorem hyp_BusyReadsOfOutputsAreFree :
    (∀ off ∈ [0x00C, 0x04C, 0x400, 0x6FC, 0x004],
      (started .wake State.reset [.host (.read off 4)]).params.legal = true ∧
      (started .wake State.reset [.host (.read off 4)]).busy = true ∧
      (started .wake State.reset [.host (.read off 4)]).turns = .host (.read off 4) :: []) ∧
    (Buf.txbuf ≠ .dbuf ∧ 0 < Buf.txbuf.size defaultParams ∧ 0x400 = Buf.txbuf.offset 0) ∧
    (Buf.rxbuf ≠ .dbuf ∧ 63 < Buf.rxbuf.size defaultParams ∧ 0x6FC = Buf.rxbuf.offset 63) := by decide

/-- A busy read of a parameter register and of DBUF's last entry, and idle reads of RESULT and RXBUF's last entry. -/
theorem hyp_BusyReadsOfOutputsAreFree_current :
    ((0x01C, 0x11#32) ∈ (executing []).liveWords ∧ (executing []).busy = true) ∧
    (54 < State.reset.params.dbufSize ∧ 0x2D8 = Buf.dbuf.offset 54) ∧
    ((0x00C, 0xFF#32) ∈ State.reset.outputWords ∧ State.reset.busy = false) ∧
    (63 < Buf.rxbuf.size State.reset.params ∧ 0x6FC = Buf.rxbuf.offset 63) ∧ State.reset.params.legal = true := by decide

theorem hyp_IrqIsDoneAndEnabled : (0x00000002#32).getLsbD 1 = true := by decide

theorem hyp_ResetStepRestoresResetValues :
    { waking with turns := [.reset, .ctrl none] }.turns = .reset :: [.ctrl none] := rfl

theorem hyp_ResetRegisterWords : defaultParams.legal = true := by decide

end Sys2Proof.Tests
end

section
/-! Register words bit by bit, the CTRL and STATUS writes, and the IRQ output. -/

namespace Sys2Proof.Machine

/-! ## Register words -/

/-- A word has no bit in common with a mask when each bit of the mask is clear in it. -/
theorem and_eq_zero_of_getLsbD {w : Nat} {x m : BitVec w} (h : ∀ i < w, m.getLsbD i = true → x.getLsbD i = false) :
    x &&& m = 0#w := by
  refine BitVec.eq_of_getLsbD_eq fun i hi => ?_
  cases hm : m.getLsbD i with
  | false => simp [hm]
  | true => simp [h i hi hm]

/-- A field of a word is its bits at their place. -/
theorem extractLsb'_eq_of_getLsbD {w k o : Nat} {x : BitVec w} {f : BitVec k}
    (h : ∀ i < k, x.getLsbD (o + i) = f.getLsbD i) : x.extractLsb' o k = f :=
  BitVec.eq_of_getLsbD_eq fun i hi => by rw [BitVec.getLsbD_extractLsb', h i hi]; simp [hi]

/-- CTRL bit by bit (10_state R31). -/
theorem State.ctrlWord_getLsbD (s : State) (i : Nat) : s.ctrlWord.getLsbD i =
    if i = 0 then s.ie else if i < 4 then false else if i < 7 then s.retries.getLsbD (i - 4) else false := by
  show (0#25 ++ s.retries ++ 0#3 ++ BitVec.ofBool s.ie).getLsbD i = _
  simp only [BitVec.getLsbD_append, BitVec.getLsbD_zero, BitVec.getLsbD_ofBool]
  grind

/-- STATUS bit by bit (10_state R32). -/
theorem State.statusWord_getLsbD (s : State) (i : Nat) : s.statusWord.getLsbD i =
    if i = 0 then s.busy else if i = 1 then s.done else if i = 2 then s.ovr else if i = 3 then false
    else if i < 7 then s.tstate.bits.getLsbD (i - 4) else if i = 7 then false
    else if i < 12 then s.phase.bits.getLsbD (i - 8) else if i < 16 then s.attempts.getLsbD (i - 12) else false := by
  show (0#16 ++ s.attempts ++ s.phase.bits ++ 0#1 ++ s.tstate.bits ++ 0#1
    ++ BitVec.ofBool s.ovr ++ BitVec.ofBool s.done ++ BitVec.ofBool s.busy).getLsbD i = _
  simp only [BitVec.getLsbD_append, BitVec.getLsbD_zero, BitVec.getLsbD_ofBool]
  match i with
  | 0 | 1 | 2 | 3 => simp
  | j + 4 => grind

/-- RSP bit by bit (10_state R56). -/
theorem Rsp.word_getLsbD (r : Rsp) (i : Nat) : r.word.getLsbD i =
    if i < 8 then r.status.getLsbD i else if i < 12 then (deviceCodeBits r.code).getLsbD (i - 8)
    else if i < 16 then false else if i < 24 then r.dlen.getLsbD (i - 16) else if i < 31 then false
    else if i = 31 then r.valid else false := by
  show (BitVec.ofBool r.valid ++ 0#7 ++ r.dlen ++ 0#4 ++ deviceCodeBits r.code ++ r.status).getLsbD i = _
  simp only [BitVec.getLsbD_append, BitVec.getLsbD_zero, BitVec.getLsbD_ofBool]
  rcases eq_or_ne i 31 with rfl | hi
  · rfl
  · grind

theorem State.ctrlWord_fields (s : State) :
    s.ctrlWord.getLsbD 0 = s.ie ∧ s.ctrlWord.extractLsb' 4 3 = s.retries ∧ s.ctrlWord &&& 0xFFFFFF8E#32 = 0#32 := by
  have bits := s.ctrlWord_getLsbD
  refine ⟨by rw [bits]; rfl, extractLsb'_eq_of_getLsbD fun i hi => ?_, and_eq_zero_of_getLsbD fun i hi hm => ?_⟩
  · grind
  · rw [bits]
    interval_cases i <;> simp at hm ⊢

theorem State.statusWord_fields (s : State) :
    s.statusWord.getLsbD 0 = s.busy ∧ s.statusWord.getLsbD 1 = s.done ∧ s.statusWord.getLsbD 2 = s.ovr ∧
    s.statusWord.extractLsb' 4 3 = s.tstate.bits ∧ s.statusWord.extractLsb' 8 4 = s.phase.bits ∧
    s.statusWord.extractLsb' 12 4 = s.attempts ∧ s.statusWord &&& 0xFFFF0088#32 = 0#32 := by
  have bits := s.statusWord_getLsbD
  refine ⟨by rw [bits]; rfl, by rw [bits]; rfl, by rw [bits]; rfl, extractLsb'_eq_of_getLsbD fun i hi => ?_,
    extractLsb'_eq_of_getLsbD fun i hi => ?_, extractLsb'_eq_of_getLsbD fun i hi => ?_,
    and_eq_zero_of_getLsbD fun i hi hm => ?_⟩
  · grind
  · grind
  · grind
  · rw [bits]
    interval_cases i <;> simp at hm ⊢

theorem Rsp.word_fields (r : Rsp) :
    r.word.extractLsb' 0 8 = r.status ∧ r.word.extractLsb' 8 4 = deviceCodeBits r.code ∧
    r.word.extractLsb' 16 8 = r.dlen ∧ r.word.getLsbD 31 = r.valid ∧ r.word &&& 0x7F00F000#32 = 0#32 := by
  have bits := r.word_getLsbD
  refine ⟨extractLsb'_eq_of_getLsbD fun i hi => ?_, extractLsb'_eq_of_getLsbD fun i hi => ?_,
    extractLsb'_eq_of_getLsbD fun i hi => ?_, by rw [bits]; rfl, and_eq_zero_of_getLsbD fun i hi hm => ?_⟩
  · grind
  · grind
  · grind
  · rw [bits]
    interval_cases i <;> simp at hm ⊢

/-- Settles O60: the fields by the words' bits; each table of encodings is a closed fact. -/
theorem registerWordsPlaceEveryField : Obligations.RegisterWordsPlaceEveryField :=
  ⟨State.ctrlWord_fields, State.statusWord_fields, Rsp.word_fields, rfl, rfl, rfl, rfl⟩

/-! ## CTRL and STATUS writes -/

/-- A host access on the schedule is the next step (00_scope R26). -/
theorem step_host {s : State} {a : Access} {rest : List Turn} (h : s.turns = .host a :: rest) :
    step s = .next (State.access a { s with turns := rest }) := by simp [step, State.nextMove, h]

/-- A CTRL write is taken whether or not a command runs (20_memory R75). -/
theorem State.access_ctrl_write (s : State) (v : Word) : s.access (.write 0x000 4 v) = (s.writeCtrl v).respond .done := by
  have htarget : target s.params 0x000 4 = some (.reg .ctrl) := rfl
  simp [State.access, htarget, State.hostWrite, droppedWhileBusy]

/-- A STATUS write is taken whether or not a command runs (20_memory R75). -/
theorem State.access_status_write (s : State) (v : Word) :
    s.access (.write 0x004 4 v) = (s.writeStatus v).respond .done := by
  have htarget : target s.params 0x004 4 = some (.reg .status) := rfl
  simp [State.access, htarget, State.hostWrite, droppedWhileBusy]

/-- Settles O52. -/
theorem ctrlAndStatusWritesTakeEffectAnyTime : Obligations.CtrlAndStatusWritesTakeEffectAnyTime := by
  intro s v rest
  refine ⟨fun h => ?_, fun h => ?_⟩
  · rw [step_host h, State.access_ctrl_write]
    rfl
  · rw [step_host h, State.access_status_write]
    rfl

/-! ## IRQ -/

@[simp] theorem State.irq_eq_true_iff (s : State) : s.irq = true ↔ s.done = true ∧ s.ie = true := by simp [State.irq]

/-- Settles O57: completion sets DONE, acceptance and a STATUS write of bit 1 clear it, and none of them changes IE. -/
theorem irqIsDoneAndEnabled : Obligations.IrqIsDoneAndEnabled := by
  intro s code w v
  refine ⟨s.irq_eq_true_iff, ?_, ?_, fun hv => ?_⟩
  · simp [State.irq]
  · simp [State.irq]
  · simp [State.irq, hv]

end Sys2Proof.Machine
end

section
/-! The invariants of the state: what every step keeps, packaged once, and the invariants that do not look at the position. -/

namespace Sys2Proof.Machine

/-! ## One induction for every invariant of `step` -/

/-- A predicate kept by each thing a move can be made of: taking a move off the schedule, starting the decoded command, a line of
a command, an illegal word's completion, a host access and the reset. -/
structure StepInvariant (I : State → Prop) : Prop where
  turns : ∀ (s : State) (ts : List Turn), I s → I { s with turns := ts }
  start : ∀ (s : State) (q : Seq) (i : Instr), s.seq = some q → q.pos = .accepted → I s → I (s.goto (firstLine i))
  line : ∀ (s : State) (q : Seq) (reply : Option BusReply), s.seq = some q → q.pos ≠ .accepted → I s →
    I (lineStep q.pos reply s)
  illegal : ∀ (s : State) (q : Seq), s.seq = some q → q.pos = .accepted → I s → I (s.complete .badCommand)
  access : ∀ (s : State) (a : Access), I s → I (s.access a)
  reset : ∀ s : State, I s → I s.resetStep

theorem firstLine_ne_accepted (i : Instr) : firstLine i ≠ .accepted := by cases i <;> nofun

/-- A command's first line answers the same from acceptance as from that line: it sets PHASE and goes on (60_exceptions R241). -/
theorem lineStep_firstLine_goto (i : Instr) (reply : Option BusReply) (s : State) :
    lineStep (firstLine i) reply (s.goto (firstLine i)) = lineStep (firstLine i) reply s := by
  have goto_goto : ∀ (p p' : Pos) (ph : Phase), ((s.goto p).setPhase ph).goto p' = (s.setPhase ph).goto p' := by
    intro p p' ph; cases h : s.seq <;> simp [State.goto, State.setPhase, h]
  cases i <;> exact goto_goto ..

section
variable {I : State → Prop} (inv : StepInvariant I)
include inv

/-- The controller's step at any position: the step after acceptance is the first line's step of the started command. -/
theorem StepInvariant.ctrlStep {s : State} (reply : Option BusReply) (hs : I s) : I (State.ctrlStep reply s) := by
  cases hq : s.seq with
  | none => rwa [State.ctrlStep_idle hq]
  | some q =>
    by_cases hp : q.pos = .accepted
    · rw [State.ctrlStep_accepted hq hp]
      cases decode q.word with
      | error _ => exact inv.illegal s q hq hp hs
      | ok i =>
        have hgo : (s.goto (firstLine i)).seq = some { q with pos := firstLine i } := by simp [hq]
        have := inv.line _ _ reply hgo (firstLine_ne_accepted i) (inv.start s q i hq hp hs)
        rwa [lineStep_firstLine_goto] at this
    · rw [State.ctrlStep_line hq hp]
      exact inv.line s q reply hq hp hs

theorem StepInvariant.advance {s : State} (t : Turn) (hs : I s) : I (State.advance t s) := by
  cases t with
  | host a => exact inv.access s a hs
  | reset => exact inv.reset s hs
  | ctrl reply => exact inv.ctrlStep reply hs

theorem StepInvariant.runTurns {s : State} (ts : List Turn) (hs : I s) : I (State.runTurns ts s) :=
  have hall : ts.all (fun _ => true) = true := by simp
  State.runTurns_induct inv.turns (fun _ _ t _ _ h => inv.advance t h) hall hs

theorem StepInvariant.runCommand {s : State} (i : Instr) (hs : I s) : I (s.runCommand i) := by
  cases hq : s.seq with
  | none =>
    have : s.begin (firstLine i) = s := by cases s; simp_all [State.begin]
    rw [State.runCommand, this]
    exact inv.runTurns _ hs
  | some q =>
    by_cases hp : q.pos = .accepted
    · rw [State.runCommand_atStart hq hp]
      exact inv.runTurns _ (inv.start s q i hq hp hs)
    · rw [State.runCommand_inProgress hq hp]
      exact inv.runTurns _ hs

/-- Every step keeps a step invariant. -/
theorem StepInvariant.step {s t : State} (hs : I s) (h : step s = .next t) : I t := by
  rcases step_cases s with ⟨_, he⟩ | ⟨m, rest, _, he⟩ | ⟨_, _, _, i, _, _, _, he⟩ <;> rw [he] at h <;> cases h
  · exact hs
  · exact inv.advance m (inv.turns s rest hs)
  · exact inv.runCommand i hs

end

/-! ## Predicates that every update of the sequencer keeps -/

/-- A predicate that each named update of the sequencer keeps; a line of a command is made of nothing else. RSP is written with
"no frame" or with a valid frame's decoded response only (41_framer R148). -/
structure LineInvariant (I : State → Prop) : Prop where
  goto : ∀ (s : State) (p : Pos), I s → I (s.goto p)
  complete : ∀ (s : State) (code : ResultCode), I s → I (s.complete code)
  setPhase : ∀ (s : State) (p : Phase), I s → I (s.setPhase p)
  setAttempts : ∀ (s : State) (n : Nat), I s → I (s.setAttempts n)
  setRxLen : ∀ (s : State) (n : Nat), I s → I (s.setRxLen n)
  setFrameLen : ∀ (s : State) (n : Nat), I s → I (s.setFrameLen n)
  setCrc : ∀ (s : State) (c : Half), I s → I { s with crc := c }
  noFrame : ∀ s : State, I s → I (s.setRsp noFrame)
  validRsp : ∀ (s : State) (n : Nat) (status : Byte), I s → I (s.setRsp (validRsp s.params n status))
  store : ∀ (s : State) (b : Buf) (a : Nat) (v : List Byte), I s → I (s.setBufBytes b a v)
  bus : ∀ (s : State) (pd : Option Action) (tr : List Event) (ts : TState), I s →
    I { s with pending := pd, trace := s.trace ++ tr, tstate := ts }

/-- A command's line that calls a primitive keeps what the primitive's step, the next position and the calling line keep. -/
theorem callLine_keeps {Q A : Type} {I : State → Prop} {x : State × Flow Q A} {inside : Q → Pos} {k : A → State → State}
    (hgo : ∀ s p, I s → I (s.goto p)) (hx : I x.1) (hk : ∀ a s, I s → I (k a s)) : I (callLine x inside k) := by
  obtain ⟨t, q | a⟩ := x
  · exact hgo t _ hx
  · exact hk a t hx

section
variable {I : State → Prop} (inv : LineInvariant I)
include inv

theorem LineInvariant.busFrame {s t : State} (hs : I s) (h : BusFrame s t) : I t := by
  obtain ⟨pd, tr, ts, rfl⟩ := h
  exact inv.bus s pd tr ts hs

theorem LineInvariant.await {s : State} (a : Action) (hs : I s) : I (s.await a) := inv.busFrame hs (BusFrame.await a s)

theorem LineInvariant.answered {s : State} (a : Action) (r : BusReply) (hs : I s) : I (s.answered a r) :=
  inv.busFrame hs (BusFrame.answered a r s)

theorem LineInvariant.recordWait {s : State} (n : Nat) (hs : I s) : I (s.recordWait n) :=
  inv.bus s s.pending [.wait n] s.tstate hs

theorem LineInvariant.retryStep {s : State} (f : List Byte) (p : RetryPos) (reply : Option BusReply) (hs : I s) :
    I (retryStep f p reply s).1 := by
  obtain ⟨n, l⟩ := p
  cases l with
  | head => exact hs
  | setWrite => exact inv.setPhase s _ hs
  | setAttempts => exact inv.setAttempts s _ hs
  | setResync => exact inv.setPhase s _ hs
  | exhausted => exact hs
  | write w => exact inv.busFrame hs (BusFrame.inCall (busWriteStep_frame ..) fun _ _ => rfl)
  | resync q => exact inv.busFrame hs (BusFrame.inCall (resyncStep_frame ..) fun _ _ => rfl)

theorem LineInvariant.applyStatus {s : State} (n : Nat) (status : Byte) (hs : I s) : I (s.applyStatus n status) :=
  inv.goto _ _ (inv.validRsp s n status hs)

theorem LineInvariant.completeOrGoto {s : State} (c : Prop) [Decidable c] (code : ResultCode) (p : Pos) (hs : I s) :
    I (if c then s.complete code else s.goto p) := by
  split
  · exact inv.complete s code hs
  · exact inv.goto s p hs

theorem LineInvariant.crcLine {s : State} (src : Buf) (l : CrcLine) (hs : I s) : I (crcLine src l s) := by
  cases l with
  | setPhase => exact inv.goto _ _ (inv.setPhase s _ hs)
  | setSource => exact inv.goto s _ hs
  | check size => exact inv.completeOrGoto _ _ _ hs
  | compute => exact inv.goto s _ hs
  | store c => exact inv.goto _ _ (inv.setCrc s c hs)

theorem LineInvariant.marshalLine {s : State} (l : MarshalLine) (hs : I s) : I (marshalLine l s) := by
  cases l with
  | setPhase => exact inv.goto _ _ (inv.setPhase s _ hs)
  | build => exact inv.goto s _ hs
  | check r => cases r with
    | none => exact inv.complete s _ hs
    | some f => exact inv.goto s _ hs
  | getLen f => exact inv.goto s _ hs
  | store f n => exact inv.goto _ _ (inv.store s _ _ f hs)
  | setLen n => exact inv.goto _ _ (inv.setFrameLen s n hs)

theorem LineInvariant.unmarshalLine {s : State} (l : UnmarshalLine) (hs : I s) : I (unmarshalLine l s) := by
  cases l with
  | setPhase => exact inv.goto _ _ (inv.setPhase s _ hs)
  | clearRsp => exact inv.goto _ _ (inv.noFrame s hs)
  | getLen => exact inv.goto s _ hs
  | check n => exact inv.completeOrGoto _ _ _ hs
  | run n => exact inv.goto s _ hs
  | checkFrame n v => cases v with
    | valid status => exact inv.goto s _ hs
    | frameShort | crcError | frameCountError => exact inv.complete s _ hs
  | apply n status => exact inv.applyStatus n status hs

theorem LineInvariant.busWriteLine {s : State} (l : BusWriteLine) (reply : Option BusReply) (hs : I s) :
    I (busWriteLine l reply s) := by
  cases l with
  | setCheck | setPhase => exact inv.goto _ _ (inv.setPhase s _ hs)
  | seqCheck | lenCheck => exact inv.completeOrGoto _ _ _ hs
  | transfer p =>
    exact callLine_keeps inv.goto (inv.busFrame hs (busWriteStep_frame ..)) fun ok t ht => inv.goto t _ ht
  | result ok => cases ok with
    | true => exact inv.goto s _ hs
    | false => exact inv.complete s _ hs

theorem LineInvariant.busReadLine {s : State} (l : BusReadLine) (reply : Option BusReply) (hs : I s) :
    I (busReadLine l reply s) := by
  cases l with
  | setCheck | setPhase => exact inv.goto _ _ (inv.setPhase s _ hs)
  | seqCheck | lenCheck => exact inv.completeOrGoto _ _ _ hs
  | getLen | bind n v => exact inv.goto s _ hs
  | transfer n p =>
    exact callLine_keeps inv.goto (inv.busFrame hs (busReadStep_frame ..)) fun v t ht => inv.goto t _ ht
  | result n v => cases v <;> exact inv.goto s _ hs
  | clearLen | setLen n => exact inv.goto _ _ (inv.setRxLen s _ hs)
  | store n v => exact inv.goto _ _ (inv.store s _ _ v hs)

theorem LineInvariant.resyncLine {s : State} (l : ResyncLine) (reply : Option BusReply) (hs : I s) :
    I (resyncLine l reply s) := by
  cases l with
  | setPhase => exact inv.goto _ _ (inv.setPhase s _ hs)
  | run p =>
    refine callLine_keeps inv.goto (inv.busFrame hs (resyncStep_frame ..)) fun ok t ht => ?_
    cases ok with
    | true => exact inv.goto t _ ht
    | false => exact inv.complete t _ ht

theorem LineInvariant.wakeLine {s : State} (l : WakeLine) (reply : Option BusReply) (hs : I s) : I (wakeLine l reply s) := by
  cases l with
  | setPhase => exact inv.goto _ _ (inv.setPhase s _ hs)
  | pulse => cases reply with
    | none => exact inv.await _ hs
    | some r => exact inv.goto _ _ (inv.answered _ r hs)

theorem LineInvariant.sleepLine {s : State} (idle : Bool) (l : SleepLine) (reply : Option BusReply) (hs : I s) :
    I (sleepLine idle l reply s) := by
  cases l with
  | setCheck | setMarshal => exact inv.goto _ _ (inv.setPhase s _ hs)
  | seqCheck => exact inv.completeOrGoto _ _ _ hs
  | setMode | build m => exact inv.goto s _ hs
  | store f => exact inv.goto _ _ (inv.setFrameLen _ _ (inv.store s _ _ f hs))
  | write p => exact callLine_keeps inv.goto (inv.retryStep _ p reply hs) fun w t ht => inv.goto t _ ht
  | result w =>
    simp only [Machine.sleepLine]
    split
    · exact inv.goto s _ hs
    · exact inv.complete s _ hs

theorem LineInvariant.executeLine {s : State} (wakeFirst : Bool) (l : ExecuteLine) (reply : Option BusReply) (hs : I s) :
    I (executeLine wakeFirst l reply s) := by
  cases l with
  | setCheck | setMarshal | setWake | setWait | setReadCount | setReadBody c | setUnmarshal c | failSetResync =>
    exact inv.goto _ _ (inv.setPhase s _ hs)
  | clearRsp => exact inv.goto _ _ (inv.noFrame s hs)
  | seqCheck | lenCheck | shortCheck c | longCheck c | restartCheck c v => exact inv.completeOrGoto _ _ _ hs
  | build | ifWake | bindCount v | ifContinue c | bindBody c v | unmarshal c => exact inv.goto s _ hs
  | check r => cases r with
    | none => exact inv.complete s _ hs
    | some f => exact inv.goto s _ hs
  | store f => exact inv.goto _ _ (inv.setFrameLen _ _ (inv.store s _ _ f hs))
  | pulse => cases reply with
    | none => exact inv.await _ hs
    | some r => exact inv.goto _ _ (inv.answered _ r hs)
  | write p => exact callLine_keeps inv.goto (inv.retryStep _ p reply hs) fun w t ht => inv.goto t _ ht
  | result w =>
    simp only [Machine.executeLine]
    split
    · exact inv.goto s _ hs
    · exact inv.complete s _ hs
  | wait => exact inv.goto _ _ (inv.recordWait _ hs)
  | readCount p => exact callLine_keeps inv.goto (inv.busFrame hs (busReadStep_frame ..)) fun v t ht => inv.goto t _ ht
  | readBody c p => exact callLine_keeps inv.goto (inv.busFrame hs (busReadStep_frame ..)) fun v t ht => inv.goto t _ ht
  | countResult v => cases v <;> exact inv.goto s _ hs
  | bodyResult c v => cases v <;> exact inv.goto s _ hs
  | storeCount c => exact inv.goto _ _ (inv.setRxLen _ _ (inv.store s .rxbuf 0 [c] hs))
  | storeBody c v =>
    simp only [Machine.executeLine]
    split <;> exact inv.goto _ _ (inv.setRxLen _ _ (inv.store s _ _ v hs))
  | checkFrame c v => cases v with
    | valid status => exact inv.goto s _ hs
    | frameShort | crcError | frameCountError => exact inv.complete s _ hs
  | apply c status => exact inv.applyStatus _ status hs
  | failClearLen => exact inv.goto _ _ (inv.setRxLen s _ hs)
  | failResync p =>
    refine callLine_keeps inv.goto (inv.busFrame hs (resyncStep_frame ..)) fun ok t ht => ?_
    cases ok with
    | true => exact inv.goto t _ ht
    | false => exact inv.complete t _ ht

/-- Every line of every command keeps what the updates keep. -/
theorem LineInvariant.lineStep {s : State} (p : Pos) (reply : Option BusReply) (hs : I s) : I (lineStep p reply s) := by
  cases p with
  | accepted => exact hs
  | crc src l => exact inv.crcLine src l hs
  | marshal l => exact inv.marshalLine l hs
  | unmarshal l => exact inv.unmarshalLine l hs
  | busWrite l => exact inv.busWriteLine l reply hs
  | busRead l => exact inv.busReadLine l reply hs
  | resync l => exact inv.resyncLine l reply hs
  | execute wakeFirst l => exact inv.executeLine wakeFirst l reply hs
  | wake l => exact inv.wakeLine l reply hs
  | sleep idle l => exact inv.sleepLine idle l reply hs
  | complete code => exact inv.complete s code hs

/-- A predicate of the sequencer's updates that the schedule, host accesses and the reset keep as well is a step invariant. -/
theorem LineInvariant.stepInvariant (turns : ∀ (s : State) (ts : List Turn), I s → I { s with turns := ts })
    (access : ∀ (s : State) (a : Access), I s → I (s.access a)) (reset : ∀ s : State, I s → I s.resetStep) :
    StepInvariant I where
  turns := turns
  start _ _ i _ _ hs := inv.goto _ (firstLine i) hs
  line _ q reply _ _ hs := inv.lineStep q.pos reply hs
  illegal _ _ _ _ hs := inv.complete _ .badCommand hs
  access := access
  reset := reset

end

/-! ## The buffer memory -/

theorem memoryOk_lineInvariant : LineInvariant fun s => s.memoryOk = true where
  goto _ _ hs := hs
  complete _ _ hs := hs
  setPhase _ _ hs := hs
  setAttempts _ _ hs := hs
  setRxLen _ _ hs := hs
  setFrameLen _ _ hs := hs
  setCrc _ _ hs := hs
  noFrame _ hs := hs
  validRsp _ _ _ hs := hs
  store _ _ _ _ hs := State.setBufBytes_memoryOk hs
  bus _ _ _ _ hs := hs

/-- Settles O38: the buffer writes, the host's and the sequencer's, are the only updates of the memory, and each keeps the
form. -/
theorem stepKeepsMemoryCanonical : Obligations.StepKeepsMemoryCanonical := fun _ _ hs h =>
  (memoryOk_lineInvariant.stepInvariant (fun _ _ hs => hs) (fun _ a hs => State.access_memoryOk a hs)
    fun _ hs => State.resetStep_memoryOk hs).step hs h

/-! ## RSP -/

theorem State.rspOk_of_rsp_eq {s t : State} (hs : s.rspOk = true) (hrsp : t.rsp = s.rsp) (hparams : t.params = s.params) :
    t.rspOk = true := by
  rwa [State.rspOk, hrsp, hparams]

theorem State.rspOk_of_noFrame {s : State} (h : s.rsp = Machine.noFrame) : s.rspOk = true := by simp [State.rspOk, h]

theorem rspOk_lineInvariant : LineInvariant fun s => s.rspOk = true where
  goto _ _ hs := hs
  complete _ _ hs := hs
  setPhase _ _ hs := hs
  setAttempts _ _ hs := hs
  setRxLen _ _ hs := hs
  setFrameLen _ _ hs := hs
  setCrc _ _ hs := hs
  noFrame s _ := State.rspOk_of_noFrame (s.setRsp_rsp _)
  validRsp _ _ _ _ := by simp [State.rspOk, Machine.validRsp]
  store _ _ _ _ hs := State.rspOk_of_rsp_eq hs (by simp) (by simp)
  bus _ _ _ _ hs := hs

/-! ## Host accesses -/

/-- The running command, its registers and RSP are as they were. -/
structure SameCommand (s t : State) : Prop where
  params : t.params = s.params
  seq : t.seq = s.seq
  pending : t.pending = s.pending
  busy : t.busy = s.busy
  tstate : t.tstate = s.tstate
  phase : t.phase = s.phase
  attempts : t.attempts = s.attempts
  rsp : t.rsp = s.rsp

/-- A host write is the acceptance of a command word, or leaves the running command and RSP alone (20_memory R73, R75). -/
theorem State.hostWrite_cases (s : State) (t : Target) (v : Word) :
    (s.busy = false ∧ s.hostWrite t v = s.accept v) ∨ SameCommand s (s.hostWrite t v) := by
  cases hb : s.busy with
  | true =>
    obtain ⟨ie, rt, d, o, hw⟩ := State.hostWrite_busy hb t v
    exact .inr (hw ▸ ⟨rfl, rfl, rfl, rfl, rfl, rfl, rfl, rfl⟩)
  | false =>
    cases t with
    | entry b i =>
      have hw : s.hostWrite (.entry b i) v = s.setBufByte b i (v.extractLsb' 0 8) := by simp [State.hostWrite, hb]
      obtain ⟨m, hm⟩ := State.setBufByte_frame s b i (v.extractLsb' 0 8)
      exact .inr (hw ▸ hm ▸ ⟨rfl, rfl, rfl, rfl, rfl, rfl, rfl, rfl⟩)
    | reg r =>
      by_cases hr : r = .cmd
      · exact .inl ⟨rfl, by simp [State.hostWrite, hb, hr]⟩
      · right
        simp only [State.hostWrite, hb, Bool.false_and, Bool.false_eq_true, if_false]
        cases r <;> first | exact absurd rfl hr | exact ⟨rfl, rfl, rfl, rfl, rfl, rfl, rfl, rfl⟩

/-- A host access is the acceptance of a command word, or leaves the running command and RSP alone. -/
theorem State.access_accepts_or_same (s : State) (a : Access) :
    (∃ v, s.busy = false ∧ s.access a = (s.accept v).respond .done) ∨ SameCommand s (s.access a) := by
  rcases State.access_cases s a with he | ⟨_, _, t, _, _, he⟩ | ⟨_, _, v, t, _, _, he⟩ <;> rw [he]
  · exact .inr ⟨rfl, rfl, rfl, rfl, rfl, rfl, rfl, rfl⟩
  · obtain ⟨r, n, hr⟩ := State.hostRead_frame s t
    exact .inr (hr ▸ ⟨rfl, rfl, rfl, rfl, rfl, rfl, rfl, rfl⟩)
  · rcases State.hostWrite_cases s t v with ⟨hb, hw⟩ | hw
    · exact .inl ⟨v, hb, by rw [hw]⟩
    · exact .inr ⟨hw.params, hw.seq, hw.pending, hw.busy, hw.tstate, hw.phase, hw.attempts, hw.rsp⟩

theorem State.access_rspOk {s : State} (a : Access) (hs : s.rspOk = true) : (s.access a).rspOk = true := by
  rcases s.access_accepts_or_same a with ⟨v, _, he⟩ | h
  · rwa [he]
  · exact State.rspOk_of_rsp_eq hs h.rsp h.params

/-- Settles O39: RSP is written by the reset, by the clearing line and by `applyStatus` only (41_framer R148). -/
theorem stepKeepsRspInvariant : Obligations.StepKeepsRspInvariant := fun _ _ hs h =>
  (rspOk_lineInvariant.stepInvariant (fun _ _ hs => hs) (fun _ a hs => State.access_rspOk a hs)
    fun _ _ => State.rspOk_of_noFrame rfl).step hs h

/-- Settles O40. -/
theorem resetMeetsTheInvariants : Obligations.ResetMeetsTheInvariants := by
  refine ⟨rfl, rfl, ?_, rfl⟩
  have legal : State.reset.params.legal = true := by decide
  have wf : Memory.wf State.reset.params State.reset.mem = true := Memory.wf_nil _
  simp [State.memoryOk, legal, wf]

end Sys2Proof.Machine
end

section
/-! The control invariant: at each line of a command, PHASE, TSTATE and the pending action are those of the position. -/

namespace Sys2Proof.Machine

/-! ## What a primitive's step leaves, at its next line or at its return -/

/-- The postcondition of one step of a primitive: `A` where it is still inside, `B` where it has returned. -/
def Flow.Post {P R : Type} (A : P → State → Prop) (B : R → State → Prop) : State × Flow P R → Prop
  | (t, .at p) => A p t
  | (t, .ret r) => B r t

section
variable {P Q A R : Type} {at₁ : P → State → Prop} {ret₁ : R → State → Prop}

theorem Flow.Post.trivial (x : State × Flow P R) : Flow.Post (fun _ _ => True) (fun _ _ => True) x := by
  obtain ⟨t, p | r⟩ := x <;> exact ⟨⟩

/-- A fact of the next state alone joins the postcondition. -/
theorem Flow.Post.and_frame {F : State → Prop} {x : State × Flow P R} (h : Flow.Post at₁ ret₁ x) (hF : F x.1) :
    Flow.Post (fun p t => F t ∧ at₁ p t) (fun r t => F t ∧ ret₁ r t) x := by
  obtain ⟨t, p | r⟩ := x <;> exact ⟨hF, h⟩

theorem Flow.Post.onBus {a : Action} {reply : Option BusReply} {here : P} {s : State}
    {k : BusReply → State → State × Flow P R}
    (hwait : at₁ here (s.await a)) (hk : ∀ r, Flow.Post at₁ ret₁ (k r (s.answered a r))) :
    Flow.Post at₁ ret₁ (onBus a reply here s k) := by
  cases reply with
  | none => exact hwait
  | some r => exact hk r

theorem Flow.Post.inCall {at₂ : Q → State → Prop} {ret₂ : A → State → Prop} {x : State × Flow Q A} {inside : Q → P}
    {k : A → State → State × Flow P R} (hx : Flow.Post at₂ ret₂ x) (hat : ∀ q t, at₂ q t → at₁ (inside q) t)
    (hret : ∀ a t, ret₂ a t → Flow.Post at₁ ret₁ (k a t)) : Flow.Post at₁ ret₁ (inCall x inside k) := by
  obtain ⟨t, q | a⟩ := x
  · exact hat q t hx
  · exact hret a t hx

theorem Flow.Post.callLine {I : State → Bool} {x : State × Flow P R} {inside : P → Pos} {k : R → State → State}
    (hx : Flow.Post at₁ ret₁ x) (hat : ∀ p t, at₁ p t → I (t.goto (inside p)) = true)
    (hret : ∀ r t, ret₁ r t → I (k r t) = true) : I (callLine x inside k) = true := by
  obtain ⟨t, p | r⟩ := x
  · exact hat p t hx
  · exact hret r t hx

end

/-! ## TSTATE and the pending action inside the bus primitives (42_bus R162 to R166, 10_state R64) -/

/-- TSTATE is a right one, as `ok` says, and a pending action is `act`. -/
def Fits (ok : Bool) (act : Option Action) (t : State) : Prop := ok = true ∧ (t.pending = none ∨ t.pending = act)

theorem Fits.pending_none {ok : Bool} {s : State} (h : Fits ok none s) : s.pending = none := h.2.elim id id

theorem Fits.of_internal {ok : Bool} {s : State} (h : Fits ok none s) (act : Option Action) : Fits ok act s :=
  ⟨h.1, .inl h.pending_none⟩

/-- An answered action is pending no more. -/
theorem Fits.answered {ok : Bool} (h : ok = true) {act : Option Action} (a : Action) (r : BusReply) (s : State) :
    Fits ok act (s.answered a r) := ⟨h, .inl rfl⟩

theorem Fits.await {ok : Bool} (h : ok = true) (a : Action) (s : State) : Fits ok (some a) (s.await a) := ⟨h, .inr rfl⟩

/-- A line that sets TSTATE issues no action. -/
theorem Fits.setTState {ok ok' : Bool} {act : Option Action} {s : State} (h : Fits ok none s) (x : TState) (hx : ok' = true) :
    Fits ok' act (s.setTState x) := ⟨hx, .inl h.pending_none⟩

/-- A transfer that fails at an answer. -/
theorem Fits.failed (a : Action) (r : BusReply) (s : State) :
    Fits (TState.failed == .failed) none ((s.answered a r).setTState .failed) := ⟨rfl, .inl rfl⟩

/-- TSTATE after a transfer: IDLE after success, FAILED after failure (42_bus R166). -/
def TState.after (ok : Bool) (t : TState) : Bool := t == if ok then .idle else .failed

theorem sendByteStep_fits {T : TState} {b : Byte} {p : SendPos} {s : State} (reply : Option BusReply)
    (h : Fits (s.tstate == T) (p.action b) s) :
    Flow.Post (fun p t => Fits (t.tstate == T) (p.action b) t)
      (fun ok t => Fits (t.tstate == if ok then T else .failed) none t)
      (sendByteStep b p reply s) := by
  cases p with
  | send =>
    rw [sendByteStep]
    refine .onBus ?_ fun r => ?_
    · exact Fits.await h.1 _ s
    · cases hr : r.byte <;> exact Fits.answered h.1 _ r s
  | ifAck a => cases a with
    | ack => exact h
    | nack | lost => exact h.of_internal _
  | ifNack a => cases a with
    | nack =>
      rw [sendByteStep]
      refine .onBus ?_ fun r => ?_
      · exact Fits.await h.1 _ s
      · exact Fits.failed _ r s
    | ack | lost => exact h
  | ifLost => exact h.setTState _ rfl

section
variable {P R : Type} {at₁ : P → State → Prop} {ret₁ : R → State → Prop}

theorem startTransfer_post {here granted : P} {fail : R} {s : State} (reply : Option BusReply)
    (hwait : at₁ here (s.await .start)) (hok : ∀ r, at₁ granted (s.answered .start r))
    (hheld : ∀ r, ret₁ fail ((s.answered .start r).setTState .failed)) :
    Flow.Post at₁ ret₁ (startTransfer reply here granted fail s) :=
  .onBus hwait fun r => by
    cases hr : r.start
    · exact hok r
    · exact hheld r

theorem sendOrFail_post {T : TState} {b : Byte} {p : SendPos} {inside : SendPos → P} {sent : P} {fail : R} {s : State}
    (reply : Option BusReply) (h : Fits (s.tstate == T) (p.action b) s)
    (hin : ∀ p t, Fits (t.tstate == T) (p.action b) t → at₁ (inside p) t)
    (hsent : ∀ t, Fits (t.tstate == T) none t → at₁ sent t)
    (hfail : ∀ t, Fits (t.tstate == .failed) none t → ret₁ fail t) :
    Flow.Post at₁ ret₁ (sendOrFail b p reply inside sent fail s) :=
  .inCall (sendByteStep_fits reply h) hin fun ok t ht => by
    cases ok
    · exact hfail t ht
    · exact hsent t ht

end

theorem busWriteStep_fits (wa : Half) (payload : List Byte) {p : WritePos} {s : State} (reply : Option BusReply)
    (h : Fits (p.tstateOk s.tstate) (p.action s.devAddr) s) :
    Flow.Post (fun p t => Fits (p.tstateOk t.tstate) (p.action s.devAddr) t) (fun ok t => Fits (t.tstate.after ok) none t)
      (busWriteStep wa payload p reply s) := by
  cases p with
  | start =>
    exact startTransfer_post reply (Fits.await h.1 _ s) (fun r => Fits.answered h.1 _ r s)
      fun r => Fits.failed _ r s
  | addr p => exact sendOrFail_post reply h (fun _ _ => id) (fun _ => id) fun _ => id
  | byte b rest p => exact sendOrFail_post reply h (fun _ _ => id) (fun _ => id) fun _ => id
  | setAddrW | setDataSent | setStopSent | setIdle => exact h.setTState _ rfl
  | forBytes l => cases l with
    | nil => exact h
    | cons b rest => exact h.of_internal _
  | stop =>
    rw [busWriteStep]
    refine .onBus ?_ fun r => ?_
    · exact Fits.await h.1 _ s
    · exact Fits.answered h.1 _ r s
  | retOk => exact h

theorem busReadStep_fits (wa : Half) {n : Nat} {p : ReadPos} {s : State} (reply : Option BusReply)
    (h : Fits (p.tstateOk s.tstate) (p.action s.devAddr n) s) :
    Flow.Post (fun p t => Fits (p.tstateOk t.tstate) (p.action s.devAddr n) t) (fun v t => Fits (t.tstate.after v.isSome) none t)
      (busReadStep wa n p reply s) := by
  cases p with
  | start =>
    exact startTransfer_post reply (Fits.await h.1 _ s) (fun r => Fits.answered h.1 _ r s)
      fun r => Fits.failed _ r s
  | addrW p => exact sendOrFail_post reply h (fun _ _ => id) (fun _ => id) fun _ => id
  | byte b rest p => exact sendOrFail_post reply h (fun _ _ => id) (fun _ => id) fun _ => id
  | addrR p => exact sendOrFail_post reply h (fun _ _ => id) (fun _ => id) fun _ => id
  | setAddrW | setDataSent | setRstartPending | setAddrR | setDataReceived v | setIdle v => exact h.setTState _ rfl
  | forBytes l => cases l with
    | nil => exact h
    | cons b rest => exact h.of_internal _
  | rstart =>
    rw [busReadStep]
    refine .onBus ?_ fun r => ?_
    · exact Fits.await h.1 _ s
    · cases hr : r.rstart
      · exact Fits.answered h.1 _ r s
      · exact Fits.failed _ r s
  | rdbytes =>
    rw [busReadStep]
    refine .onBus ?_ fun r => ?_
    · exact Fits.await h.1 _ s
    · exact Fits.answered h.1 _ r s
  | lenCheck v =>
    by_cases hv : v.length ≠ n
    · rw [busReadStep, if_pos hv]
      refine .onBus ?_ fun r => ?_
      · rw [ReadPos.action, if_pos hv]
        exact Fits.await h.1 .stop s
      · exact Fits.failed _ r s
    · rw [busReadStep, if_neg hv]
      rw [ReadPos.action, if_neg hv] at h
      exact h
  | stop v =>
    rw [busReadStep]
    refine .onBus ?_ fun r => ?_
    · exact Fits.await h.1 _ s
    · exact Fits.answered h.1 _ r s
  | retOk v => exact h

theorem resyncStep_fits (before : TState → Bool) {p : ResyncPos} {s : State} (reply : Option BusReply)
    (h : Fits (p.tstateOk before s.tstate) p.action s) :
    Flow.Post (fun p t => Fits (p.tstateOk before t.tstate) p.action t) (fun ok t => Fits (t.tstate.after ok) none t)
      (resyncStep p reply s) := by
  cases p with
  | start | startAgain =>
    rw [resyncStep]
    refine .onBus ?_ fun r => ?_
    · exact Fits.await h.1 _ s
    · cases hr : r.start <;> exact Fits.answered h.1 _ r s
  | dummy | stop =>
    rw [resyncStep]
    refine .onBus ?_ fun r => ?_
    · exact Fits.await h.1 _ s
    · exact Fits.answered h.1 _ r s
  | setFailed | setIdle => exact h.setTState _ rfl
  | retHeld | retOk => exact h

/-! ## The command write with retry (43_transaction R199) -/

/-- PHASE where a command write has answered w: WRITE after OK, RESYNC after a failure (43_transaction R210). -/
def Phase.okAfter (f : Phase) (w : ResultCode) : Bool := f == if w = .ok then .write else .resync

/-- Inside `WriteWithRetry` at p: PHASE, TSTATE and the pending action are those of the line. -/
def RetryFits (before : List Phase) (devAddr : BitVec 7) (p : RetryPos) (t : State) : Prop :=
  p.phaseOk before t.phase = true ∧ Fits (p.tstateOk t.tstate) (p.action devAddr) t

theorem RetryPos.phaseOk_iff {before : List Phase} {f : Phase} {n : Nat} {l : RetryLine} :
    RetryPos.phaseOk before f ⟨n, l⟩ = true ↔ 1 ≤ n ∧ match l with
      | .head | .setWrite => if n = 1 then f ∈ before else f = .resync
      | .setAttempts | .write _ | .setResync => f = .write
      | .resync _ | .exhausted => f = .resync := by
  cases l <;> simp [RetryPos.phaseOk]

theorem BusFrame.phase {s t : State} (h : BusFrame s t) : t.phase = s.phase := by
  obtain ⟨pd, tr, ts, rfl⟩ := h
  rfl

theorem retryStep_fits {f : List Byte} {before : List Phase} {p : RetryPos} {s : State} (reply : Option BusReply)
    (h : RetryFits before s.devAddr p s) :
    Flow.Post (RetryFits before s.devAddr) (fun w t => t.phase.okAfter w = true ∧ Fits (t.tstate.okAfter w) none t)
      (retryStep f p reply s) := by
  obtain ⟨n, l⟩ := p
  obtain ⟨hph, hfit⟩ := h
  rw [RetryPos.phaseOk_iff] at hph
  obtain ⟨hn, hph⟩ := hph
  cases l with
  | head =>
    by_cases hle : n ≤ 1 + s.snapRetries
    · simp only [retryStep, if_pos hle]
      exact ⟨RetryPos.phaseOk_iff.2 ⟨hn, hph⟩, hfit⟩
    · simp only [retryStep, if_neg hle]
      exact ⟨RetryPos.phaseOk_iff.2 ⟨hn, by simpa [show n ≠ 1 by omega] using hph⟩, hfit⟩
  | setWrite => exact ⟨RetryPos.phaseOk_iff.2 ⟨hn, rfl⟩, hfit⟩
  | setAttempts => exact ⟨RetryPos.phaseOk_iff.2 ⟨hn, hph⟩, hfit.of_internal _⟩
  | setResync => exact ⟨RetryPos.phaseOk_iff.2 ⟨hn, rfl⟩, hfit.of_internal _⟩
  | exhausted => exact ⟨by simpa [Phase.okAfter] using hph, hfit⟩
  | write w =>
    have hcall := (busWriteStep_fits s.ioaddr f reply hfit).and_frame (busWriteStep_frame ..)
    refine hcall.inCall (fun w t ht => ⟨RetryPos.phaseOk_iff.2 ⟨hn, ?_⟩, ht.2⟩) fun ok t ht => ?_
    · exact ht.1.phase.trans hph
    · have htp : t.phase = .write := ht.1.phase.trans hph
      cases ok with
      | true => exact ⟨by simp [Phase.okAfter, htp], ht.2⟩
      | false => exact ⟨RetryPos.phaseOk_iff.2 ⟨hn, htp⟩, ht.2⟩
  | resync q =>
    have hcall := (resyncStep_fits (· == .failed) reply hfit).and_frame (resyncStep_frame ..)
    refine hcall.inCall (fun w t ht => ⟨RetryPos.phaseOk_iff.2 ⟨hn, ?_⟩, ht.2⟩) fun ok t ht => ?_
    · exact ht.1.phase.trans hph
    · have htp : t.phase = .resync := ht.1.phase.trans hph
      cases ok with
      | true => exact ⟨RetryPos.phaseOk_iff.2 ⟨by omega, by simp [show n ≠ 0 by omega, htp]⟩, ht.2⟩
      | false => exact ⟨by simp [Phase.okAfter, htp], ht.2⟩

/-! ## A state at a position of a command -/

/-- A command runs: BUSY is set and DONE is clear (10_state R33, R34). -/
def State.Running (s : State) : Prop := s.seq.isSome = true ∧ s.busy = true ∧ s.done = false

/-- A command runs, and PHASE, TSTATE and the pending action are those of position p. -/
structure State.At (s : State) (p : Pos) : Prop where
  running : s.Running
  phase : p.phaseOk s.phase = true
  fits : Fits (p.tstateOk s.tstate) (s.actionAt p) s

theorem State.controlOk_running {s : State} (q : Seq) (hq : s.seq = some q) : s.controlOk = true ↔ s.At q.pos := by
  constructor
  · intro h
    simp only [State.controlOk, hq, Bool.and_eq_true, Bool.or_eq_true, Bool.not_eq_true', Option.isNone_iff_eq_none,
      beq_iff_eq] at h
    obtain ⟨⟨⟨⟨hbusy, hdone⟩, hph⟩, hts⟩, hpd⟩ := h
    exact ⟨⟨by simp [hq], hbusy, hdone⟩, hph, hts, hpd⟩
  · rintro ⟨⟨_, hbusy, hdone⟩, hph, hts, hpd⟩
    simp only [State.controlOk, hq, hbusy, hdone, hph, hts, Bool.and_eq_true, Bool.or_eq_true, Option.isNone_iff_eq_none,
      beq_iff_eq]
    simpa using hpd

theorem State.controlOk_idle {s : State} (hq : s.seq = none) :
    s.controlOk = true ↔ s.busy = false ∧ s.phase = .idle ∧ Fits s.tstate.settled none s := by
  simp [State.controlOk, hq, Fits, and_assoc]

/-- Going on at p keeps the invariant when PHASE, TSTATE and the pending action are already those of p. -/
theorem State.At.goto {s : State} {p : Pos} (h : s.At p) : (s.goto p).controlOk = true := by
  obtain ⟨q, hq⟩ := Option.isSome_iff_exists.1 h.running.1
  rw [State.controlOk_running { q with pos := p } (by simp [hq])]
  exact ⟨⟨by simp [hq], h.running.2⟩, h.phase, h.fits⟩

/-- Completing keeps the invariant when TSTATE is settled and nothing is pending. -/
theorem State.complete_controlOk {s : State} (code : ResultCode) (h : Fits s.tstate.settled none s) :
    (s.complete code).controlOk = true := (State.controlOk_idle rfl).2 ⟨rfl, rfl, h⟩

theorem State.At.setBufBytes {s : State} {p : Pos} (h : s.At p) (b : Buf) (a : Nat) (v : List Byte) :
    (s.setBufBytes b a v).At p := by
  obtain ⟨m, hm⟩ := State.setBufBytes_frame b a v s
  rw [hm]
  exact ⟨h.running, h.phase, h.fits⟩

/-- Waiting keeps the invariant: the pending action is the one the position issues (10_state R64). -/
theorem State.At.await {s : State} {p : Pos} {a : Action} (h : s.At p) (hpos : s.seq.map Seq.pos = some p)
    (ha : s.actionAt p = some a) : (s.await a).controlOk = true := by
  obtain ⟨q, hq, rfl⟩ := Option.map_eq_some_iff.1 hpos
  rw [State.controlOk_running q (by exact hq)]
  exact ⟨h.running, h.phase, h.fits.1, .inr ha.symm⟩

/-! ## TSTATE between transfers -/

theorem TState.settled_of_idle {t : TState} (h : (t == .idle) = true) : t.settled = true := by simp [TState.settled, h]

theorem TState.settled_of_failed {t : TState} (h : (t == .failed) = true) : t.settled = true := by simp [TState.settled, h]

theorem TState.settled_of_okAfter {t : TState} {w : ResultCode} (h : t.okAfter w = true) : t.settled = true := by
  unfold TState.okAfter at h
  split at h
  · exact TState.settled_of_idle h
  · exact TState.settled_of_failed h

theorem Phase.ne_idle_of_eq {f x : Phase} (h : (f == x) = true) (hx : x ≠ .idle) : (f != .idle) = true := by
  rw [beq_iff_eq.1 h]
  exact bne_iff_ne.2 hx

/-- Past the check of R166 TSTATE is IDLE. -/
theorem TState.idle_of_settled {t : TState} (h : t.settled = true) (hne : t ≠ .failed) : (t == .idle) = true := by
  simpa [TState.settled, hne] using h

theorem Fits.mono {ok ok' : Bool} {act : Option Action} {s : State} (h : Fits ok act s) (hok : ok = true → ok' = true) :
    Fits ok' act s := ⟨hok h.1, h.2⟩

/-- A line that checks: it completes, TSTATE being settled and nothing pending, or goes on. -/
theorem State.completeOrGoto_controlOk {s : State} {c : Prop} [Decidable c] {code : ResultCode} {p : Pos}
    (h : Fits s.tstate.settled none s) (hgo : ¬c → s.At p) :
    (if c then s.complete code else s.goto p).controlOk = true := by
  split
  · exact State.complete_controlOk code h
  · exact (hgo ‹_›).goto

/-- The check of 42_bus R166, which a transfer command's first lines make while PHASE is CHECK: on FAILED the command ends with
SEQ_ERROR, and otherwise it goes on at p. -/
theorem State.seqCheck_controlOk {s : State} {p : Pos} (hrun : s.Running) (hph : p.phaseOk s.phase = true)
    (hfit : Fits s.tstate.settled none s) (hp : p.tstateOk s.tstate = (s.tstate == .idle)) :
    (if s.tstate = .failed then s.complete .seqError else s.goto p).controlOk = true :=
  State.completeOrGoto_controlOk hfit fun hne =>
    ⟨hrun, hph, (hfit.mono fun h => by rw [hp]; exact TState.idle_of_settled h hne).of_internal _⟩

/-! ## The lines of each command -/

theorem crcLine_controlOk {src : Buf} {l : CrcLine} {s : State} (h : s.At (.crc src l)) : (crcLine src l s).controlOk = true := by
  cases l with
  | setPhase => exact State.At.goto ⟨h.running, rfl, h.fits⟩
  | setSource | compute => exact State.At.goto ⟨h.running, h.phase, h.fits⟩
  | check size => exact State.completeOrGoto_controlOk h.fits fun _ => ⟨h.running, h.phase, h.fits⟩
  | store c => exact State.At.goto ⟨h.running, Phase.ne_idle_of_eq h.phase nofun, h.fits⟩

theorem marshalLine_controlOk {l : MarshalLine} {s : State} (h : s.At (.marshal l)) : (marshalLine l s).controlOk = true := by
  cases l with
  | setPhase => exact State.At.goto ⟨h.running, rfl, h.fits⟩
  | build | getLen f => exact State.At.goto ⟨h.running, h.phase, h.fits⟩
  | check r => cases r with
    | none => exact State.complete_controlOk _ h.fits
    | some f => exact State.At.goto ⟨h.running, h.phase, h.fits⟩
  | store f n =>
    have hat : s.At (.marshal (.setLen n)) := ⟨h.running, h.phase, h.fits⟩
    exact (hat.setBufBytes _ _ _).goto
  | setLen n => exact State.At.goto ⟨h.running, Phase.ne_idle_of_eq h.phase nofun, h.fits⟩

theorem unmarshalLine_controlOk {l : UnmarshalLine} {s : State} (h : s.At (.unmarshal l)) :
    (unmarshalLine l s).controlOk = true := by
  cases l with
  | setPhase => exact State.At.goto ⟨h.running, rfl, h.fits⟩
  | clearRsp | getLen | run n => exact State.At.goto ⟨h.running, h.phase, h.fits⟩
  | check n => exact State.completeOrGoto_controlOk h.fits fun _ => ⟨h.running, h.phase, h.fits⟩
  | checkFrame n v => cases v with
    | valid status => exact State.At.goto ⟨h.running, h.phase, h.fits⟩
    | frameShort | crcError | frameCountError => exact State.complete_controlOk _ h.fits
  | apply n status => exact State.At.goto ⟨h.running, Phase.ne_idle_of_eq h.phase nofun, h.fits⟩

theorem busWriteLine_controlOk {l : BusWriteLine} {reply : Option BusReply} {s : State} (h : s.At (.busWrite l)) :
    (busWriteLine l reply s).controlOk = true := by
  cases l with
  | setCheck => exact State.At.goto ⟨h.running, rfl, h.fits⟩
  | seqCheck => exact State.seqCheck_controlOk h.running h.phase h.fits rfl
  | lenCheck =>
    exact State.completeOrGoto_controlOk (h.fits.mono TState.settled_of_idle) fun _ => ⟨h.running, h.phase, h.fits⟩
  | setPhase => exact State.At.goto ⟨h.running, rfl, h.fits.of_internal _⟩
  | transfer p =>
    refine ((busWriteStep_fits _ _ reply h.fits).and_frame (busWriteStep_frame ..)).callLine ?_ ?_
    · rintro p' _ ⟨⟨pd, tr, ts, rfl⟩, hfit⟩
      exact State.At.goto ⟨h.running, h.phase, hfit⟩
    · rintro ok _ ⟨⟨pd, tr, ts, rfl⟩, hfit⟩
      cases ok <;> exact State.At.goto ⟨h.running, h.phase, hfit⟩
  | result ok => cases ok with
    | true =>
      exact State.At.goto ⟨h.running, Phase.ne_idle_of_eq h.phase nofun, h.fits.mono TState.settled_of_idle⟩
    | false => exact State.complete_controlOk _ (h.fits.mono TState.settled_of_failed)

theorem busReadLine_controlOk {l : BusReadLine} {reply : Option BusReply} {s : State} (h : s.At (.busRead l)) :
    (busReadLine l reply s).controlOk = true := by
  cases l with
  | setCheck => exact State.At.goto ⟨h.running, rfl, h.fits⟩
  | seqCheck => exact State.seqCheck_controlOk h.running h.phase h.fits rfl
  | lenCheck =>
    exact State.completeOrGoto_controlOk (h.fits.mono TState.settled_of_idle) fun _ => ⟨h.running, h.phase, h.fits⟩
  | setPhase => exact State.At.goto ⟨h.running, rfl, h.fits⟩
  | getLen => exact State.At.goto ⟨h.running, h.phase, h.fits.of_internal _⟩
  | transfer n p =>
    refine ((busReadStep_fits _ reply h.fits).and_frame (busReadStep_frame ..)).callLine ?_ ?_
    · rintro p' _ ⟨⟨pd, tr, ts, rfl⟩, hfit⟩
      exact State.At.goto ⟨h.running, h.phase, hfit⟩
    · rintro v _ ⟨⟨pd, tr, ts, rfl⟩, hfit⟩
      cases v <;> exact State.At.goto ⟨h.running, h.phase, hfit⟩
  | result n v => cases v <;> exact State.At.goto ⟨h.running, h.phase, h.fits⟩
  | clearLen =>
    exact State.At.goto ⟨h.running, Phase.ne_idle_of_eq h.phase nofun, h.fits.mono TState.settled_of_failed⟩
  | bind n v => exact State.At.goto ⟨h.running, h.phase, h.fits⟩
  | store n v =>
    have hat : s.At (.busRead (.setLen n)) := ⟨h.running, h.phase, h.fits⟩
    exact (hat.setBufBytes _ _ _).goto
  | setLen n =>
    exact State.At.goto ⟨h.running, Phase.ne_idle_of_eq h.phase nofun, h.fits.mono TState.settled_of_idle⟩

/-- A line inside `Resync`: it goes on inside, or, once the bus is free again, at p, or the command ends with RESYNC_FAIL. -/
theorem resyncCall_controlOk (before : TState → Bool) {q : ResyncPos} {inside : ResyncPos → Pos} {code : ResultCode}
    {reply : Option BusReply} {s : State} (hrun : s.Running) (hph : (s.phase == .resync) = true)
    (hfit : Fits (q.tstateOk before s.tstate) q.action s) (hphase : ∀ q f, (inside q).phaseOk f = (f == .resync))
    (htstate : ∀ q t, (inside q).tstateOk t = q.tstateOk before t)
    (haction : ∀ q (t : State), t.actionAt (inside q) = q.action) :
    (callLine (resyncStep q reply s) inside fun ok t =>
      if ok then t.goto (.complete code) else t.complete .resyncFail).controlOk = true := by
  refine ((resyncStep_fits before reply hfit).and_frame (resyncStep_frame ..)).callLine ?_ ?_
  · rintro q' _ ⟨⟨pd, tr, ts, rfl⟩, hfit'⟩
    exact State.At.goto ⟨hrun, by rwa [hphase], by rwa [htstate, haction]⟩
  · rintro ok _ ⟨⟨pd, tr, ts, rfl⟩, hfit'⟩
    cases ok with
    | true => exact State.At.goto ⟨hrun, Phase.ne_idle_of_eq hph nofun, hfit'.mono TState.settled_of_idle⟩
    | false => exact State.complete_controlOk _ (hfit'.mono TState.settled_of_failed)

theorem resyncLine_controlOk {l : ResyncLine} {reply : Option BusReply} {s : State} (h : s.At (.resync l)) :
    (resyncLine l reply s).controlOk = true := by
  cases l with
  | setPhase => exact State.At.goto ⟨h.running, rfl, h.fits.of_internal _⟩
  | run q => exact resyncCall_controlOk TState.settled h.running h.phase h.fits (fun _ _ => rfl) (fun _ _ => rfl) fun _ _ => rfl

theorem wakeLine_controlOk {l : WakeLine} {reply : Option BusReply} {s : State} (h : s.At (.wake l))
    (hq : (s.seq.map Seq.pos) = some (.wake l)) : (wakeLine l reply s).controlOk = true := by
  cases l with
  | setPhase => exact State.At.goto ⟨h.running, rfl, h.fits.of_internal _⟩
  | pulse => cases reply with
    | none => exact State.At.await h hq rfl
    | some r => exact State.At.goto ⟨h.running, Phase.ne_idle_of_eq h.phase nofun, .answered h.fits.1 _ r s⟩

/-- What a step of `WriteWithRetry` may change: the frame of a bus primitive, PHASE and ATTEMPTS. -/
def RetryFrame (s t : State) : Prop :=
  ∃ pd tr ts ph n, t = { s with pending := pd, trace := s.trace ++ tr, tstate := ts, phase := ph, attempts := n }

/-- A line inside `WriteWithRetry`: it goes on inside, or, once the command write has answered w, at `result w`. -/
theorem retryCall_controlOk {before : List Phase} {f : List Byte} {p : RetryPos} {inside : RetryPos → Pos}
    {result : ResultCode → Pos} {reply : Option BusReply} {s : State} (hrun : s.Running) (hfit : RetryFits before s.devAddr p s)
    (hinside : ∀ p (t : State), RetryFits before t.devAddr p t →
      (inside p).phaseOk t.phase = true ∧ Fits ((inside p).tstateOk t.tstate) (t.actionAt (inside p)) t)
    (hresult : ∀ w (t : State), t.phase.okAfter w = true → Fits (t.tstate.okAfter w) none t →
      (result w).phaseOk t.phase = true ∧ Fits ((result w).tstateOk t.tstate) (t.actionAt (result w)) t) :
    (callLine (retryStep f p reply s) inside fun w t => t.goto (result w)).controlOk = true := by
  have hframe : RetryFrame s (retryStep f p reply s).1 := retryStep_frame ..
  refine ((retryStep_fits reply hfit).and_frame hframe).callLine ?_ ?_
  · rintro p' _ ⟨⟨pd, tr, ts, ph, n, rfl⟩, hp⟩
    obtain ⟨hph, hf⟩ := hinside p' _ hp
    exact State.At.goto ⟨hrun, hph, hf⟩
  · rintro w _ ⟨⟨pd, tr, ts, ph, n, rfl⟩, hw, hf⟩
    obtain ⟨hph, hf'⟩ := hresult w _ hw hf
    exact State.At.goto ⟨hrun, hph, hf'⟩

/-- A command write that has just been entered from a PHASE of `before`. -/
theorem retryStart_phaseOk {before : List Phase} {f : Phase} (h : f ∈ before) : retryStart.phaseOk before f = true :=
  RetryPos.phaseOk_iff.2 ⟨le_rfl, h⟩

theorem sleepLine_controlOk {idle : Bool} {l : SleepLine} {reply : Option BusReply} {s : State} (h : s.At (.sleep idle l)) :
    (sleepLine idle l reply s).controlOk = true := by
  cases l with
  | setCheck => exact State.At.goto ⟨h.running, rfl, h.fits⟩
  | seqCheck => exact State.seqCheck_controlOk h.running h.phase h.fits rfl
  | setMarshal => exact State.At.goto ⟨h.running, rfl, h.fits⟩
  | setMode | build m => exact State.At.goto ⟨h.running, h.phase, h.fits⟩
  | store f =>
    have hph : retryStart.phaseOk [.marshal] s.phase = true := retryStart_phaseOk (by simpa using beq_iff_eq.1 h.phase)
    have hat : s.At (.sleep idle (.write retryStart)) := ⟨h.running, hph, h.fits⟩
    have hstored := hat.setBufBytes .txbuf 0 f
    exact State.At.goto ⟨hstored.running, hstored.phase, hstored.fits⟩
  | write p => exact retryCall_controlOk h.running ⟨h.phase, h.fits⟩ (fun _ _ => id) fun _ _ => And.intro
  | result w =>
    simp only [sleepLine]
    split
    · next hw =>
      subst hw
      exact State.At.goto ⟨h.running, Phase.ne_idle_of_eq h.phase nofun, h.fits.mono TState.settled_of_idle⟩
    · exact State.complete_controlOk _ (h.fits.mono TState.settled_of_okAfter)

/-- A line of EXECUTE that reads from the device: it goes on inside the read, or at `result v` once it has answered v. -/
theorem readCall_controlOk {wa : Half} {n : Nat} {p : ReadPos} {inside : ReadPos → Pos} {result : Option (List Byte) → Pos}
    {reply : Option BusReply} {s : State} (hrun : s.Running) (hin : ∀ p, (inside p).phaseOk s.phase = true)
    (hfit : Fits (p.tstateOk s.tstate) (p.action s.devAddr n) s) (hout : ∀ v, (result v).phaseOk s.phase = true)
    (hinside : ∀ p (t : State), t.params = s.params → Fits (p.tstateOk t.tstate) (p.action t.devAddr n) t →
      Fits ((inside p).tstateOk t.tstate) (t.actionAt (inside p)) t)
    (hresult : ∀ v (t : State), Fits (t.tstate.after v.isSome) none t →
      Fits ((result v).tstateOk t.tstate) (t.actionAt (result v)) t) :
    (callLine (busReadStep wa n p reply s) inside fun v t => t.goto (result v)).controlOk = true := by
  refine ((busReadStep_fits _ reply hfit).and_frame (busReadStep_frame ..)).callLine ?_ ?_
  · rintro p' _ ⟨⟨pd, tr, ts, rfl⟩, hf⟩
    exact State.At.goto ⟨hrun, hin p', hinside p' _ rfl hf⟩
  · rintro v _ ⟨⟨pd, tr, ts, rfl⟩, hf⟩
    exact State.At.goto ⟨hrun, hout v, hresult v _ hf⟩

theorem executeLine_controlOk {wakeFirst : Bool} {l : ExecuteLine} {reply : Option BusReply} {s : State}
    (h : s.At (.execute wakeFirst l)) (hq : s.seq.map Seq.pos = some (.execute wakeFirst l)) :
    (executeLine wakeFirst l reply s).controlOk = true := by
  cases l with
  | setCheck | setMarshal | setWake | setWait | setReadCount | setReadBody c | setUnmarshal c =>
    exact State.At.goto ⟨h.running, rfl, h.fits.of_internal _⟩
  | seqCheck => exact State.seqCheck_controlOk h.running h.phase h.fits rfl
  | lenCheck | shortCheck c | longCheck c | restartCheck c v =>
    exact State.completeOrGoto_controlOk (h.fits.mono TState.settled_of_idle) fun _ => ⟨h.running, h.phase, h.fits⟩
  | clearRsp | build | wait | bindCount v | ifContinue c | bindBody c v | unmarshal c =>
    exact State.At.goto ⟨h.running, h.phase, h.fits.of_internal _⟩
  | check r => cases r with
    | none => exact State.complete_controlOk _ (h.fits.mono TState.settled_of_idle)
    | some f => exact State.At.goto ⟨h.running, h.phase, h.fits⟩
  | store f =>
    have hat : s.At (.execute wakeFirst .ifWake) := ⟨h.running, h.phase, h.fits⟩
    have hstored := hat.setBufBytes .txbuf 0 f
    exact State.At.goto ⟨hstored.running, hstored.phase, hstored.fits⟩
  | ifWake => cases wakeFirst with
    | true => exact State.At.goto ⟨h.running, h.phase, h.fits⟩
    | false =>
      have hph : retryStart.phaseOk [.marshal, .wake] s.phase = true :=
        retryStart_phaseOk (by simp [beq_iff_eq.1 h.phase])
      exact State.At.goto ⟨h.running, hph, h.fits⟩
  | pulse => cases reply with
    | none => exact h.await hq rfl
    | some r =>
      have hph : retryStart.phaseOk [.marshal, .wake] s.phase = true :=
        retryStart_phaseOk (by simp [beq_iff_eq.1 h.phase])
      exact State.At.goto ⟨h.running, hph, .answered h.fits.1 _ r s⟩
  | write p => exact retryCall_controlOk h.running ⟨h.phase, h.fits⟩ (fun _ _ => id) fun _ _ => And.intro
  | result w =>
    simp only [executeLine]
    split
    · next hw =>
      subst hw
      exact State.At.goto ⟨h.running, h.phase, h.fits⟩
    · exact State.complete_controlOk _ (h.fits.mono TState.settled_of_okAfter)
  | readCount p =>
    refine readCall_controlOk h.running (fun _ => h.phase) h.fits (fun v => ?_) (fun _ _ _ => id) fun v _ => ?_
    · cases v <;> exact h.phase
    · cases v <;> exact id
  | readBody c p =>
    refine readCall_controlOk h.running (fun _ => h.phase) h.fits (fun v => ?_) (fun _ t ht hf => ?_) fun v _ => ?_
    · cases v <;> exact h.phase
    · exact ⟨hf.1, by simpa only [State.actionAt, ht] using hf.2⟩
    · cases v <;> exact id
  | countResult v => cases v with
    | none =>
      have hph : (Pos.execute wakeFirst .failClearLen).phaseOk s.phase = true := by simp [Pos.phaseOk, beq_iff_eq.1 h.phase]
      exact State.At.goto ⟨h.running, hph, h.fits⟩
    | some v => exact State.At.goto ⟨h.running, h.phase, h.fits⟩
  | bodyResult c v => cases v with
    | none =>
      have hph : (Pos.execute wakeFirst .failClearLen).phaseOk s.phase = true := by simp [Pos.phaseOk, beq_iff_eq.1 h.phase]
      exact State.At.goto ⟨h.running, hph, h.fits⟩
    | some v => exact State.At.goto ⟨h.running, h.phase, h.fits⟩
  | storeCount c =>
    have hat : s.At (.execute wakeFirst (.shortCheck c)) := ⟨h.running, h.phase, h.fits⟩
    have hstored := hat.setBufBytes .rxbuf 0 [c]
    exact State.At.goto ⟨hstored.running, hstored.phase, hstored.fits⟩
  | storeBody c v =>
    simp only [executeLine]
    split
    · have hat : s.At (.execute wakeFirst (.setUnmarshal c)) := ⟨h.running, h.phase, h.fits⟩
      have hstored := hat.setBufBytes .rxbuf 1 v
      exact State.At.goto ⟨hstored.running, hstored.phase, hstored.fits⟩
    · have hat : s.At (.execute wakeFirst (.restartCheck c v)) := ⟨h.running, h.phase, h.fits⟩
      have hstored := hat.setBufBytes .rxbuf 0 v
      exact State.At.goto ⟨hstored.running, hstored.phase, hstored.fits⟩
  | checkFrame c v => cases v with
    | valid status => exact State.At.goto ⟨h.running, h.phase, h.fits⟩
    | frameShort | crcError | frameCountError => exact State.complete_controlOk _ (h.fits.mono TState.settled_of_idle)
  | apply c status =>
    exact State.At.goto ⟨h.running, Phase.ne_idle_of_eq h.phase nofun, h.fits.mono TState.settled_of_idle⟩
  | failClearLen => exact State.At.goto ⟨h.running, h.phase, h.fits⟩
  | failSetResync => exact State.At.goto ⟨h.running, rfl, h.fits.of_internal _⟩
  | failResync p =>
    exact resyncCall_controlOk (· == .failed) h.running h.phase h.fits (fun _ _ => rfl) (fun _ _ => rfl)
      fun _ _ => rfl

/-- Every line of every command keeps the control invariant. -/
theorem lineStep_controlOk {p : Pos} {reply : Option BusReply} {s : State} (h : s.At p) (hq : s.seq.map Seq.pos = some p)
    (hp : p ≠ .accepted) : (lineStep p reply s).controlOk = true := by
  cases p with
  | accepted => exact absurd rfl hp
  | crc src l => exact crcLine_controlOk h
  | marshal l => exact marshalLine_controlOk h
  | unmarshal l => exact unmarshalLine_controlOk h
  | busWrite l => exact busWriteLine_controlOk h
  | busRead l => exact busReadLine_controlOk h
  | resync l => exact resyncLine_controlOk h
  | execute wakeFirst l => exact executeLine_controlOk h hq
  | wake l => exact wakeLine_controlOk h hq
  | sleep idle l => exact sleepLine_controlOk h
  | complete code => exact State.complete_controlOk code h.fits

/-! ## The invariant of the machine -/

/-- A decoded command starts in the PHASE, the TSTATE and with the pending action of acceptance (60_exceptions R241). -/
theorem State.At.firstLine {s : State} (h : s.At .accepted) (i : Instr) : s.At (firstLine i) := by
  cases i <;> exact ⟨h.running, h.phase, h.fits.of_internal _⟩

/-- Acceptance meets the invariant, and a host access changes nothing else that it speaks of (20_memory R75). -/
theorem State.access_controlOk {s : State} (a : Access) (h : s.controlOk = true) : (s.access a).controlOk = true := by
  cases hq : s.seq with
  | none =>
    obtain ⟨hbusy, hphase, hfit⟩ := (State.controlOk_idle hq).1 h
    rcases s.access_accepts_or_same a with ⟨v, _, he⟩ | hsame
    · rw [he, State.controlOk_running _ rfl]
      exact ⟨⟨rfl, rfl, rfl⟩, rfl, hfit⟩
    · rw [State.controlOk_idle (hsame.seq.trans hq), hsame.busy, hsame.phase, hsame.tstate]
      exact ⟨hbusy, hphase, hfit.1, by rw [hsame.pending]; exact hfit.2⟩
  | some q =>
    obtain ⟨⟨hseq, hbusy, hdone⟩, hphase, hfit⟩ := (State.controlOk_running q hq).1 h
    obtain ⟨ie, rt, d, o, l, n, he⟩ := State.access_busy hbusy a
    rw [he, State.controlOk_running q (by exact hq)]
    exact ⟨⟨hseq, hbusy, by simp [hdone]⟩, hphase, hfit⟩

theorem controlOk_stepInvariant : StepInvariant fun s => s.controlOk = true where
  turns _ _ h := h
  start s q i hq hp h := by
    have hat := (State.controlOk_running q hq).1 h
    rw [hp] at hat
    exact (hat.firstLine i).goto
  line s q reply hq hp h := lineStep_controlOk ((State.controlOk_running q hq).1 h) (by simp [hq]) hp
  illegal s q hq hp h := by
    have hat := (State.controlOk_running q hq).1 h
    rw [hp] at hat
    exact State.complete_controlOk _ hat.fits
  access _ a h := State.access_controlOk a h
  reset _ _ := rfl

/-- Settles O36, by the invariant of each line's position. -/
theorem stepKeepsControlInvariant : Obligations.StepKeepsControlInvariant := fun _ _ hs h =>
  controlOk_stepInvariant.step hs h

end Sys2Proof.Machine
end

section
/-! The ATTEMPTS invariant: ATTEMPTS follows the loop counter of `WriteWithRetry` (10_state R38, 43_transaction R199, R200). -/

namespace Sys2Proof.Machine

/-- At position p, ATTEMPTS is at most 8 and follows the loop counter, with the snapshotted RETRIES. -/
def State.CountsAt (s : State) (p : Pos) : Prop :=
  s.attempts.toNat ≤ 8 ∧ p.attemptsOk s.snapRetries s.attempts.toNat = true

theorem State.snapRetries_le (s : State) : s.snapRetries ≤ 7 := by
  unfold State.snapRetries
  cases s.seq with
  | none => simp
  | some q => simp; omega

theorem State.attemptsOk_running {s : State} (q : Seq) (hq : s.seq = some q) : s.attemptsOk = true ↔ s.CountsAt q.pos := by
  simp [State.attemptsOk, State.CountsAt, State.snapRetries, hq]

theorem State.attemptsOk_idle {s : State} (hq : s.seq = none) : s.attemptsOk = true ↔ s.attempts.toNat ≤ 8 := by
  simp [State.attemptsOk, hq]

theorem State.CountsAt.goto {s : State} {p : Pos} (h : s.CountsAt p) : (s.goto p).attemptsOk = true := by
  cases hq : s.seq with
  | none => exact (State.attemptsOk_idle (by simp [hq])).2 h.1
  | some q =>
    rw [State.attemptsOk_running { q with pos := p } (by simp [hq])]
    simpa [State.CountsAt] using h

theorem State.complete_attemptsOk {s : State} (code : ResultCode) (h : s.attempts.toNat ≤ 8) :
    (s.complete code).attemptsOk = true := (State.attemptsOk_idle rfl).2 h

theorem State.CountsAt.setBufBytes {s : State} {p : Pos} (h : s.CountsAt p) (b : Buf) (a : Nat) (v : List Byte) :
    (s.setBufBytes b a v).CountsAt p := by
  obtain ⟨m, hm⟩ := State.setBufBytes_frame b a v s
  rw [hm]
  exact h

/-- Waiting changes neither ATTEMPTS nor the position. -/
theorem State.CountsAt.await {s : State} {p : Pos} (h : s.CountsAt p) (hpos : s.seq.map Seq.pos = some p) (a : Action) :
    (s.await a).attemptsOk = true := by
  obtain ⟨q, hq, rfl⟩ := Option.map_eq_some_iff.1 hpos
  rw [State.attemptsOk_running q (by exact hq)]
  exact h

/-- A line that checks keeps ATTEMPTS; where it goes on, ATTEMPTS is that of the next position. -/
theorem State.completeOrGoto_attemptsOk {s : State} {c : Prop} [Decidable c] {code : ResultCode} {p : Pos}
    (h : s.CountsAt p) : (if c then s.complete code else s.goto p).attemptsOk = true := by
  split
  · exact State.complete_attemptsOk code h.1
  · exact h.goto

/-- At the completion step ATTEMPTS need only be at most 1 + RETRIES. -/
theorem State.CountsAt.complete {s : State} {code : ResultCode} (h : s.attempts.toNat ≤ 8)
    (hn : s.attempts.toNat ≤ 1 + s.snapRetries) : s.CountsAt (.complete code) := ⟨h, decide_eq_true hn⟩

/-! ## The command write with retry -/

theorem RetryPos.attemptsOk_iff {k n a : Nat} {l : RetryLine} :
    RetryPos.attemptsOk k n ⟨a, l⟩ = true ↔ 1 ≤ a ∧ match l with
      | .head => a ≤ 2 + k ∧ n + 1 = a
      | .exhausted => a = 2 + k ∧ n + 1 = a
      | .setWrite | .setAttempts => a ≤ 1 + k ∧ n + 1 = a
      | .write _ | .setResync | .resync _ => a ≤ 1 + k ∧ n = a := by
  cases l <;> simp [RetryPos.attemptsOk]

theorem BusFrame.attempts {s t : State} (h : BusFrame s t) : t.attempts = s.attempts := by
  obtain ⟨pd, tr, ts, rfl⟩ := h
  rfl

/-- One step of the retry loop: ATTEMPTS follows the loop counter, and at the return it is between 1 and 1 + RETRIES
(43_transaction R200). -/
theorem retryStep_attempts {f : List Byte} {p : RetryPos} {s : State} (reply : Option BusReply)
    (h : p.attemptsOk s.snapRetries s.attempts.toNat = true) :
    Flow.Post (fun p t => p.attemptsOk s.snapRetries t.attempts.toNat = true)
      (fun _ t => 1 ≤ t.attempts.toNat ∧ t.attempts.toNat ≤ 1 + s.snapRetries) (retryStep f p reply s) := by
  obtain ⟨a, l⟩ := p
  obtain ⟨ha, hl⟩ := RetryPos.attemptsOk_iff.1 h
  cases l with
  | head =>
    by_cases hle : a ≤ 1 + s.snapRetries
    · simp only [retryStep, if_pos hle]
      exact RetryPos.attemptsOk_iff.2 ⟨ha, hle, hl.2⟩
    · simp only [retryStep, if_neg hle]
      exact RetryPos.attemptsOk_iff.2 ⟨ha, by omega, hl.2⟩
  | setWrite => exact RetryPos.attemptsOk_iff.2 ⟨ha, hl⟩
  | setAttempts =>
    have hk := s.snapRetries_le
    have hset : (BitVec.ofNat 4 a).toNat = a := by simp; omega
    exact RetryPos.attemptsOk_iff.2 ⟨ha, hl.1, hset⟩
  | setResync => exact RetryPos.attemptsOk_iff.2 ⟨ha, hl⟩
  | exhausted =>
    show 1 ≤ s.attempts.toNat ∧ s.attempts.toNat ≤ 1 + s.snapRetries
    omega
  | write w =>
    have hcall := (Flow.Post.trivial (busWriteStep s.ioaddr f w reply s)).and_frame (busWriteStep_frame ..)
    refine hcall.inCall (fun w t ht => RetryPos.attemptsOk_iff.2 ⟨ha, ?_⟩) fun ok t ht => ?_
    · rw [ht.1.attempts]
      exact hl
    · have hn : t.attempts.toNat = s.attempts.toNat := by rw [ht.1.attempts]
      cases ok with
      | true => exact ⟨by omega, by omega⟩
      | false => exact RetryPos.attemptsOk_iff.2 ⟨ha, by rw [hn]; exact hl⟩
  | resync q =>
    have hcall := (Flow.Post.trivial (resyncStep q reply s)).and_frame (resyncStep_frame ..)
    refine hcall.inCall (fun q t ht => RetryPos.attemptsOk_iff.2 ⟨ha, ?_⟩) fun ok t ht => ?_
    · rw [ht.1.attempts]
      exact hl
    · have hn : t.attempts.toNat = s.attempts.toNat := by rw [ht.1.attempts]
      cases ok with
      | true =>
        have hnext : a + 1 ≤ 2 + s.snapRetries ∧ t.attempts.toNat + 1 = a + 1 := by omega
        exact RetryPos.attemptsOk_iff.2 ⟨Nat.le_add_left 1 a, hnext⟩
      | false => exact ⟨by omega, by omega⟩

theorem RetryPos.attempts_le {k n : Nat} {p : RetryPos} (h : p.attemptsOk k n = true) : n ≤ 1 + k := by
  obtain ⟨a, l⟩ := p
  obtain ⟨ha, hl⟩ := RetryPos.attemptsOk_iff.1 h
  cases l <;> simp only at hl <;> omega

/-- A line inside `WriteWithRetry`: it goes on inside, or, once the command write has answered w, at `result w`. -/
theorem retryCall_attemptsOk {f : List Byte} {p : RetryPos} {inside : RetryPos → Pos} {result : ResultCode → Pos}
    {reply : Option BusReply} {s : State} (h : p.attemptsOk s.snapRetries s.attempts.toNat = true)
    (hinside : ∀ p k n, (inside p).attemptsOk k n = p.attemptsOk k n)
    (hresult : ∀ w k n, 1 ≤ n → n ≤ 1 + k → (result w).attemptsOk k n = true) :
    (callLine (retryStep f p reply s) inside fun w t => t.goto (result w)).attemptsOk = true := by
  have hk := s.snapRetries_le
  have hframe : RetryFrame s (retryStep f p reply s).1 := retryStep_frame ..
  refine ((retryStep_attempts reply h).and_frame hframe).callLine ?_ ?_
  · rintro p' _ ⟨⟨pd, tr, ts, ph, n, rfl⟩, hp⟩
    have hle := RetryPos.attempts_le hp
    exact State.CountsAt.goto ⟨by omega, by rw [hinside]; exact hp⟩
  · rintro w _ ⟨⟨pd, tr, ts, ph, n, rfl⟩, hone, hle⟩
    exact State.CountsAt.goto ⟨by omega, hresult _ _ _ hone hle⟩

/-- A line that calls a bus primitive: the primitive changes neither ATTEMPTS nor the snapshot. -/
theorem busCall_attemptsOk {Q A : Type} {x : State × Flow Q A} {inside : Q → Pos} {k : A → State → State} {p : Pos}
    {s : State} (h : s.CountsAt p) (hframe : BusFrame s x.1) (hin : ∀ q t, State.CountsAt t p → t.CountsAt (inside q))
    (hret : ∀ a t, State.CountsAt t p → (k a t).attemptsOk = true) : (callLine x inside k).attemptsOk = true := by
  refine ((Flow.Post.trivial x).and_frame hframe).callLine ?_ ?_
  · rintro q _ ⟨⟨pd, tr, ts, rfl⟩, _⟩
    exact (hin q _ h).goto
  · rintro a _ ⟨⟨pd, tr, ts, rfl⟩, _⟩
    exact hret a _ h

/-! ## The lines of each command -/

/-- ATTEMPTS is 0 in a command that makes no command write. -/
theorem State.CountsAt.complete_of_zero {s : State} {code : ResultCode} (h : (s.attempts.toNat == 0) = true) :
    s.CountsAt (.complete code) := by
  have h0 : s.attempts.toNat = 0 := beq_iff_eq.1 h
  exact .complete (by omega) (by omega)

theorem crcLine_attemptsOk {src : Buf} {l : CrcLine} {s : State} (h : s.CountsAt (.crc src l)) :
    (crcLine src l s).attemptsOk = true := by
  cases l with
  | setPhase | setSource | compute => exact State.CountsAt.goto h
  | check size => exact State.completeOrGoto_attemptsOk h
  | store c => exact State.CountsAt.goto (State.CountsAt.complete_of_zero h.2)

theorem marshalLine_attemptsOk {l : MarshalLine} {s : State} (h : s.CountsAt (.marshal l)) :
    (marshalLine l s).attemptsOk = true := by
  cases l with
  | setPhase | build | getLen f => exact State.CountsAt.goto h
  | check r => cases r with
    | none => exact State.complete_attemptsOk _ h.1
    | some f => exact State.CountsAt.goto h
  | store f n => exact State.CountsAt.goto (h.setBufBytes _ _ _)
  | setLen n => exact State.CountsAt.goto (State.CountsAt.complete_of_zero h.2)

theorem unmarshalLine_attemptsOk {l : UnmarshalLine} {s : State} (h : s.CountsAt (.unmarshal l)) :
    (unmarshalLine l s).attemptsOk = true := by
  cases l with
  | setPhase | clearRsp | getLen | run n => exact State.CountsAt.goto h
  | check n => exact State.completeOrGoto_attemptsOk h
  | checkFrame n v => cases v with
    | valid status => exact State.CountsAt.goto h
    | frameShort | crcError | frameCountError => exact State.complete_attemptsOk _ h.1
  | apply n status => exact State.CountsAt.goto (State.CountsAt.complete_of_zero h.2)

theorem busWriteLine_attemptsOk {l : BusWriteLine} {reply : Option BusReply} {s : State} (h : s.CountsAt (.busWrite l)) :
    (busWriteLine l reply s).attemptsOk = true := by
  cases l with
  | setCheck | setPhase => exact State.CountsAt.goto h
  | seqCheck | lenCheck => exact State.completeOrGoto_attemptsOk h
  | transfer p => exact busCall_attemptsOk h (busWriteStep_frame ..) (fun _ _ => id) fun _ _ ht =>
      State.CountsAt.goto ht
  | result ok => cases ok with
    | true => exact State.CountsAt.goto (State.CountsAt.complete_of_zero h.2)
    | false => exact State.complete_attemptsOk _ h.1

theorem busReadLine_attemptsOk {l : BusReadLine} {reply : Option BusReply} {s : State} (h : s.CountsAt (.busRead l)) :
    (busReadLine l reply s).attemptsOk = true := by
  cases l with
  | setCheck | setPhase | getLen | bind n v => exact State.CountsAt.goto h
  | seqCheck | lenCheck => exact State.completeOrGoto_attemptsOk h
  | transfer n p => exact busCall_attemptsOk h (busReadStep_frame ..) (fun _ _ => id) fun _ _ ht =>
      State.CountsAt.goto ht
  | result n v => cases v <;> exact State.CountsAt.goto h
  | store n v => exact State.CountsAt.goto (h.setBufBytes _ _ _)
  | clearLen | setLen n => exact State.CountsAt.goto (State.CountsAt.complete_of_zero h.2)

theorem resyncLine_attemptsOk {l : ResyncLine} {reply : Option BusReply} {s : State} (h : s.CountsAt (.resync l)) :
    (resyncLine l reply s).attemptsOk = true := by
  cases l with
  | setPhase => exact State.CountsAt.goto h
  | run p =>
    refine busCall_attemptsOk h (resyncStep_frame ..) (fun _ _ => id) fun ok t ht => ?_
    cases ok with
    | true => exact State.CountsAt.goto (State.CountsAt.complete_of_zero ht.2)
    | false => exact State.complete_attemptsOk _ ht.1

theorem wakeLine_attemptsOk {l : WakeLine} {reply : Option BusReply} {s : State} (h : s.CountsAt (.wake l))
    (hpos : s.seq.map Seq.pos = some (.wake l)) : (wakeLine l reply s).attemptsOk = true := by
  cases l with
  | setPhase => exact State.CountsAt.goto h
  | pulse => cases reply with
    | none => exact h.await hpos _
    | some r => exact State.CountsAt.goto (State.CountsAt.complete_of_zero h.2)

/-- A command write that has just been entered, ATTEMPTS being 0. -/
theorem retryStart_attemptsOk {k n : Nat} (h : (n == 0) = true) : retryStart.attemptsOk k n = true := by
  have h0 : n = 0 := beq_iff_eq.1 h
  exact RetryPos.attemptsOk_iff.2 ⟨le_rfl, by omega, by omega⟩

/-- After a command write ATTEMPTS is between 1 and 1 + RETRIES, and a command may complete. -/
theorem State.CountsAt.complete_of_between {s : State} {code : ResultCode} (h8 : s.attempts.toNat ≤ 8)
    (h : (decide (1 ≤ s.attempts.toNat) && decide (s.attempts.toNat ≤ 1 + s.snapRetries)) = true) :
    s.CountsAt (.complete code) := by
  rw [Bool.and_eq_true] at h
  exact ⟨h8, h.2⟩

theorem decide_between {k n : Nat} (h1 : 1 ≤ n) (hk : n ≤ 1 + k) : (decide (1 ≤ n) && decide (n ≤ 1 + k)) = true := by
  simp [h1, hk]

theorem sleepLine_attemptsOk {idle : Bool} {l : SleepLine} {reply : Option BusReply} {s : State}
    (h : s.CountsAt (.sleep idle l)) : (sleepLine idle l reply s).attemptsOk = true := by
  cases l with
  | setCheck | setMarshal | setMode | build m => exact State.CountsAt.goto h
  | seqCheck => exact State.completeOrGoto_attemptsOk h
  | store f =>
    have hw : s.CountsAt (.sleep idle (.write retryStart)) := ⟨h.1, retryStart_attemptsOk h.2⟩
    exact State.CountsAt.goto (hw.setBufBytes .txbuf 0 f)
  | write p => exact retryCall_attemptsOk h.2 (fun _ _ _ => rfl) fun _ _ _ => decide_between
  | result w =>
    simp only [sleepLine]
    split
    · exact State.CountsAt.goto (State.CountsAt.complete_of_between h.1 h.2)
    · exact State.complete_attemptsOk _ h.1

theorem executeLine_attemptsOk {wakeFirst : Bool} {l : ExecuteLine} {reply : Option BusReply} {s : State}
    (h : s.CountsAt (.execute wakeFirst l)) (hpos : s.seq.map Seq.pos = some (.execute wakeFirst l)) :
    (executeLine wakeFirst l reply s).attemptsOk = true := by
  cases l with
  | setCheck | clearRsp | setMarshal | build | setWake | setWait | wait | setReadCount | bindCount v | setReadBody c
  | ifContinue c | bindBody c v | setUnmarshal c | unmarshal c | failClearLen | failSetResync =>
    exact State.CountsAt.goto h
  | seqCheck | lenCheck | shortCheck c | longCheck c | restartCheck c v => exact State.completeOrGoto_attemptsOk h
  | check r => cases r with
    | none => exact State.complete_attemptsOk _ h.1
    | some f => exact State.CountsAt.goto h
  | store f => exact State.CountsAt.goto (h.setBufBytes .txbuf 0 f)
  | ifWake => cases wakeFirst with
    | true => exact State.CountsAt.goto h
    | false => exact State.CountsAt.goto ⟨h.1, retryStart_attemptsOk h.2⟩
  | pulse => cases reply with
    | none => exact h.await hpos _
    | some r => exact State.CountsAt.goto ⟨h.1, retryStart_attemptsOk h.2⟩
  | write p => exact retryCall_attemptsOk h.2 (fun _ _ _ => rfl) fun _ _ _ => decide_between
  | result w =>
    simp only [executeLine]
    split
    · exact State.CountsAt.goto h
    · exact State.complete_attemptsOk _ h.1
  | readCount p => exact busCall_attemptsOk h (busReadStep_frame ..) (fun _ _ => id) fun _ _ ht =>
      State.CountsAt.goto ht
  | readBody c p => exact busCall_attemptsOk h (busReadStep_frame ..) (fun _ _ => id) fun _ _ ht =>
      State.CountsAt.goto ht
  | countResult v => cases v <;> exact State.CountsAt.goto h
  | bodyResult c v => cases v <;> exact State.CountsAt.goto h
  | storeCount c => exact State.CountsAt.goto (h.setBufBytes .rxbuf 0 [c])
  | storeBody c v =>
    simp only [executeLine]
    split <;> exact State.CountsAt.goto (h.setBufBytes _ _ v)
  | checkFrame c v => cases v with
    | valid status => exact State.CountsAt.goto h
    | frameShort | crcError | frameCountError => exact State.complete_attemptsOk _ h.1
  | apply c status => exact State.CountsAt.goto (State.CountsAt.complete_of_between h.1 h.2)
  | failResync p =>
    refine busCall_attemptsOk h (resyncStep_frame ..) (fun _ _ => id) fun ok t ht => ?_
    cases ok with
    | true => exact State.CountsAt.goto (State.CountsAt.complete_of_between ht.1 ht.2)
    | false => exact State.complete_attemptsOk _ ht.1

/-- Every line of every command keeps the ATTEMPTS invariant. -/
theorem lineStep_attemptsOk {p : Pos} {reply : Option BusReply} {s : State} (h : s.CountsAt p)
    (hpos : s.seq.map Seq.pos = some p) (hp : p ≠ .accepted) : (lineStep p reply s).attemptsOk = true := by
  cases p with
  | accepted => exact absurd rfl hp
  | crc src l => exact crcLine_attemptsOk h
  | marshal l => exact marshalLine_attemptsOk h
  | unmarshal l => exact unmarshalLine_attemptsOk h
  | busWrite l => exact busWriteLine_attemptsOk h
  | busRead l => exact busReadLine_attemptsOk h
  | resync l => exact resyncLine_attemptsOk h
  | execute wakeFirst l => exact executeLine_attemptsOk h hpos
  | wake l => exact wakeLine_attemptsOk h hpos
  | sleep idle l => exact sleepLine_attemptsOk h
  | complete code => exact State.complete_attemptsOk code h.1

/-! ## The invariant of the machine -/

/-- Acceptance clears ATTEMPTS, and no other host access changes it, the position or the snapshot. -/
theorem State.access_attemptsOk {s : State} (a : Access) (h : s.attemptsOk = true) : (s.access a).attemptsOk = true := by
  rcases s.access_accepts_or_same a with ⟨v, _, he⟩ | hsame
  · rw [he]
    rfl
  · rwa [State.attemptsOk, hsame.seq, hsame.attempts]

theorem attemptsOk_stepInvariant : StepInvariant fun s => s.attemptsOk = true where
  turns _ _ h := h
  start s q i hq hp h := by
    have hat := (State.attemptsOk_running q hq).1 h
    rw [hp] at hat
    cases i <;> exact State.CountsAt.goto hat
  line s q reply hq hp h := lineStep_attemptsOk ((State.attemptsOk_running q hq).1 h) (by simp [hq]) hp
  illegal _ q hq _ h := State.complete_attemptsOk _ ((State.attemptsOk_running q hq).1 h).1
  access _ a h := State.access_attemptsOk a h
  reset _ _ := rfl

/-- Settles O37, by the invariant of each line's position; the control invariant is not needed for it. -/
theorem stepKeepsAttemptsInvariant : Obligations.StepKeepsAttemptsInvariant := fun _ _ _ hs h =>
  attemptsOk_stepInvariant.step hs h

end Sys2Proof.Machine
end

section
/-! The host side: which offsets are mapped, what a legal read returns, and what a legal write does (20_memory R70 to R76). -/

namespace Sys2Proof.Machine

/-! ## The register map (10_state section 2) -/

/-- The offset of a register: the inverse of `regAt` (`regAt_eq_some_iff`). -/
def Reg.offset : Reg → Nat
  | .ctrl => 0x000
  | .status => 0x004
  | .cmd => 0x008
  | .result => 0x00C
  | .devAddr => 0x010
  | .waddr => 0x014
  | .ioaddr => 0x018
  | .opcode => 0x01C
  | .mode => 0x020
  | .param1 => 0x024
  | .param2 => 0x028
  | .dlen => 0x02C
  | .wrLen => 0x030
  | .rdLen => 0x034
  | .crcLen => 0x038
  | .respLen => 0x03C
  | .frameLen => 0x040
  | .rxLen => 0x044
  | .crc => 0x048
  | .rsp => 0x04C

theorem regAt_offset (r : Reg) : regAt r.offset = some r := by cases r <;> rfl

theorem regAt_eq_some_iff {off : Nat} {r : Reg} : regAt off = some r ↔ off = r.offset := by
  refine ⟨fun h => ?_, fun h => h ▸ regAt_offset r⟩
  unfold regAt at h
  split at h <;> cases h <;> rfl

/-- The registers fill the aligned offsets up to 0x04C. -/
theorem regAt_isSome_iff {off : Nat} (hoff : off % 4 = 0) : (regAt off).isSome = true ↔ off ≤ 0x04C := by
  constructor
  · intro h
    obtain ⟨r, hr⟩ := Option.isSome_iff_exists.1 h
    rw [regAt_eq_some_iff.1 hr]
    cases r <;> decide
  · intro h
    have all : ∀ o ≤ 0x04C, o % 4 = 0 → (regAt o).isSome = true := by decide
    exact all off h hoff

/-- A buffer entry's offset is aligned and above every register's (10_state R60). -/
theorem Buf.offset_aligned (b : Buf) (i : Nat) : b.offset i % 4 = 0 ∧ 0x200 ≤ b.offset i := by
  cases b <;> simp only [Buf.offset, Buf.base] <;> omega

theorem regAt_bufOffset (b : Buf) (i : Nat) : regAt (b.offset i) = none := by
  obtain ⟨haligned, hbase⟩ := b.offset_aligned i
  by_contra h
  have := (regAt_isSome_iff haligned).1 (Option.isSome_iff_ne_none.2 h)
  omega

/-- An aligned offset in a buffer's window is that of one of its entries (10_state R60). -/
theorem Buf.inWindow_iff {p : Params} {b : Buf} {off : Nat} (hoff : off % 4 = 0) :
    (b.base ≤ off ∧ off < b.base + 4 * b.size p) ↔ ∃ i, i < b.size p ∧ off = b.offset i := by
  constructor
  · rintro ⟨hlo, hhi⟩
    refine ⟨(off - b.base) / 4, by omega, ?_⟩
    cases b <;> simp only [Buf.offset, Buf.base] at hlo ⊢ <;> omega
  · rintro ⟨i, hi, rfl⟩
    simp only [Buf.offset]
    omega

theorem entryAt_isSome_iff {p : Params} {off : Nat} (hoff : off % 4 = 0) :
    (entryAt p off).isSome = true ↔ ∃ (b : Buf) (i : Nat), i < b.size p ∧ off = b.offset i := by
  have hentry : (entryAt p off).isSome = true ↔ ∃ b : Buf, b.base ≤ off ∧ off < b.base + 4 * b.size p := by
    simp only [entryAt, List.findSome?_isSome_iff, Option.isSome_ite]
    exact ⟨fun ⟨b, _, h⟩ => ⟨b, h⟩, fun ⟨b, h⟩ => ⟨b, by cases b <;> simp, h⟩⟩
  rw [hentry]
  exact exists_congr fun b => Buf.inWindow_iff hoff

/-- With legal parameters an entry's offset names that entry: the windows do not meet (10_state R60). -/
theorem entryAt_bufOffset {p : Params} (hp : p.legal = true) {b : Buf} {i : Nat} (hi : i < b.size p) :
    entryAt p (b.offset i) = some (.entry b i) := by
  have only : ∀ c : Buf, (c.base ≤ b.offset i ∧ b.offset i < c.base + 4 * c.size p) ↔ c = b := by
    intro c
    rw [Buf.inWindow_iff (b.offset_aligned i).1]
    constructor
    · rintro ⟨j, hj, he⟩
      by_contra hc
      exact Buf.offset_ne hp hc hj hi he.symm
    · rintro rfl
      exact ⟨i, hi, rfl⟩
  have index : (b.offset i - b.base) / 4 = i := by simp only [Buf.offset]; omega
  cases b <;> simp [entryAt, only, index]

/-! ## What a legal access reaches (20_memory R70, R71) -/

theorem target_reg (p : Params) (r : Reg) : target p r.offset 4 = some (.reg r) := by cases r <;> rfl

theorem target_entry {p : Params} (hp : p.legal = true) {b : Buf} {i : Nat} (hi : i < b.size p) :
    target p (b.offset i) 4 = some (.entry b i) := by
  simp [target, (b.offset_aligned i).1, regAt_bufOffset, entryAt_bufOffset hp hi]

theorem target_isSome_iff {p : Params} {off size : Nat} :
    (target p off size).isSome = true ↔
      size = 4 ∧ off % 4 = 0 ∧ ((regAt off).isSome = true ∨ (entryAt p off).isSome = true) := by
  unfold target
  split
  · next h => cases hr : regAt off <;> simp [h]
  · next h => simp only [Option.isSome_none, Bool.false_eq_true, false_iff]; tauto

/-- Settles O50: the registers fill 0x000 to 0x04C, and an aligned offset in a window is an entry's. -/
theorem mappedOffsetsAreTheRegistersAndBufferEntries : Obligations.MappedOffsetsAreTheRegistersAndBufferEntries := by
  intro p off size _
  rw [target_isSome_iff]
  refine and_congr_right fun _ => and_congr_right fun hoff => ?_
  rw [regAt_isSome_iff hoff, entryAt_isSome_iff hoff]

/-! ## The access on the schedule -/

theorem State.access_read {s : State} {off size : Nat} {t : Target} (h : target s.params off size = some t) :
    s.access (.read off size) = s.hostRead t := by simp [State.access, h]

theorem State.access_write {s : State} {off size : Nat} {t : Target} (h : target s.params off size = some t) (v : Word) :
    s.access (.write off size v) = (s.hostWrite t v).respond .done := by simp [State.access, h]

/-- Settles O49. -/
theorem illegalAccessChangesNothing : Obligations.IllegalAccessChangesNothing := by
  intro s a off size rest ha hturns htarget
  rw [step_host hturns]
  rcases ha with rfl | ⟨v, rfl⟩
  · simp [State.access, htarget, State.respond]
  · simp [State.access, htarget, State.respond]

/-! ## Reads -/

/-- A read, legal or not, changes at most the record of responses and the count of draws (20_memory R70, R76). -/
theorem State.access_read_frame (s : State) (off size : Nat) :
    ∃ r n, s.access (.read off size) = { s with hostLog := s.hostLog ++ [r], draws := n } := by
  cases htarget : target s.params off size with
  | none => exact ⟨.error, s.draws, by simp [State.access, htarget, State.respond]⟩
  | some t => rw [State.access_read htarget]; exact State.hostRead_frame s t

/-- Settles O55. -/
theorem readsHaveNoSideEffect : Obligations.ReadsHaveNoSideEffect := by
  intro s t off size rest hturns hstep
  rw [step_host hturns] at hstep
  cases hstep
  obtain ⟨r, n, hr⟩ := State.access_read_frame { s with turns := rest } off size
  rw [hr]

/-- While BUSY = 1 an output reads as the next free value, its reserved bits 0 (20_memory R72, R74). -/
theorem State.hostRead_free {s : State} {t : Target} (hbusy : s.busy = true) (ht : anyMask t ≠ 0#32) :
    s.hostRead t = { s with draws := s.draws + 1, hostLog := s.hostLog ++ [.data (Config.busyRead s.draws &&& anyMask t)] } := by
  simp [State.hostRead, hbusy, ht, State.respond]

/-- What is no output, and anything while BUSY = 0, reads as its value (20_memory R72). -/
theorem State.hostRead_live {s : State} {t : Target} (h : s.busy = false ∨ anyMask t = 0#32) :
    s.hostRead t = { s with hostLog := s.hostLog ++ [.data (s.targetWord t)] } := by
  rcases h with h | h <;> simp [State.hostRead, h, State.respond]

theorem step_read {s : State} {off : Nat} {t : Target} {rest : List Turn} (hturns : s.turns = .host (.read off 4) :: rest)
    (htarget : target s.params off 4 = some t) : step s = .next (State.hostRead t { s with turns := rest }) :=
  (step_host hturns).trans (congrArg _ (State.access_read htarget))

theorem step_read_free {s : State} {off : Nat} {t : Target} {rest : List Turn} (hturns : s.turns = .host (.read off 4) :: rest)
    (htarget : target s.params off 4 = some t) (hbusy : s.busy = true) (ht : anyMask t ≠ 0#32) :
    step s = .next { s with
      turns := rest, draws := s.draws + 1, hostLog := s.hostLog ++ [.data (Config.busyRead s.draws &&& anyMask t)] } := by
  exact (step_read hturns htarget).trans (congrArg _ (State.hostRead_free hbusy ht))

theorem step_read_live {s : State} {off : Nat} {t : Target} {rest : List Turn} (hturns : s.turns = .host (.read off 4) :: rest)
    (htarget : target s.params off 4 = some t) (h : s.busy = false ∨ anyMask t = 0#32) :
    step s = .next { s with turns := rest, hostLog := s.hostLog ++ [.data (s.targetWord t)] } := by
  refine (step_read hturns htarget).trans (congrArg _ ((State.hostRead_live (s := { s with turns := rest }) h).trans ?_))
  cases t <;> rfl

/-- The registers that read as free values while BUSY = 1 (20_memory R72). -/
def outputRegs : List Reg := [.result, .frameLen, .rxLen, .crc, .rsp]

/-- The registers that read as their value at any time (20_memory R72, R74). -/
def liveRegs : List Reg :=
  [.ctrl, .status, .cmd, .devAddr, .waddr, .ioaddr, .opcode, .mode, .param1, .param2, .dlen, .wrLen, .rdLen, .crcLen, .respLen]

theorem anyMask_outputReg {r : Reg} (h : r ∈ outputRegs) : anyMask (.reg r) ≠ 0#32 := by revert r; decide

theorem anyMask_liveReg {r : Reg} (h : r ∈ liveRegs) : anyMask (.reg r) = 0#32 := by revert r; decide

theorem anyMask_outputEntry {b : Buf} (h : b ≠ .dbuf) (i : Nat) : anyMask (.entry b i) = 0xFF#32 := by
  cases b
  · exact absurd rfl h
  · rfl
  · rfl

theorem State.liveWords_eq (s : State) : s.liveWords = liveRegs.map fun r => (r.offset, s.regWord r) := rfl

theorem State.outputWords_eq (s : State) : s.outputWords = outputRegs.map fun r => (r.offset, s.regWord r) := rfl

/-- A pair of a table by registers is one register's. -/
theorem exists_reg_of_mem_table {α : Type} {rs : List Reg} {f : Reg → α} {off : Nat} {x : α}
    (h : (off, x) ∈ rs.map fun r => (r.offset, f r)) : ∃ r ∈ rs, off = r.offset ∧ x = f r := by
  obtain ⟨r, hr, he⟩ := List.mem_map.1 h
  cases he
  exact ⟨r, hr, rfl, rfl⟩

/-- Settles O56: each table of the statement lists registers with their masks or words, and the mask of a target says how it
reads. -/
theorem busyReadsOfOutputsAreFree : Obligations.BusyReadsOfOutputsAreFree := by
  refine ⟨fun s off mask rest hp hbusy hturns => ⟨?_, ?_⟩, fun s off w rest hp hturns => ?_⟩
  · rintro (hmem | ⟨rfl, b, i, hb, hi, rfl⟩)
    · have htable : (off, mask) ∈ outputRegs.map fun r => (r.offset, anyMask (.reg r)) := hmem
      obtain ⟨r, hr, rfl, rfl⟩ := exists_reg_of_mem_table htable
      exact step_read_free hturns (target_reg _ r) hbusy (anyMask_outputReg hr)
    · have hmask := anyMask_outputEntry hb i
      rw [step_read_free hturns (target_entry hp hi) hbusy (by rw [hmask]; decide), hmask]
  · rintro rfl
    exact step_read_live hturns (target_reg _ .status) (.inr rfl)
  · rintro (hlive | ⟨i, hi, rfl, rfl⟩ | ⟨hidle, hout | ⟨b, i, hi, rfl, rfl⟩⟩)
    · obtain ⟨r, hr, rfl, rfl⟩ := exists_reg_of_mem_table (s.liveWords_eq ▸ hlive)
      exact step_read_live hturns (target_reg _ r) (.inr (anyMask_liveReg hr))
    · exact step_read_live hturns (target_entry (b := .dbuf) hp hi) (.inr rfl)
    · obtain ⟨r, _, rfl, rfl⟩ := exists_reg_of_mem_table (s.outputWords_eq ▸ hout)
      exact step_read_live hturns (target_reg _ r) (.inl hidle)
    · exact step_read_live hturns (target_entry hp hi) (.inl hidle)

/-! ## Writes -/

theorem step_write {s : State} {off : Nat} {t : Target} {rest : List Turn} {v : Word}
    (hturns : s.turns = .host (.write off 4 v) :: rest) (htarget : target s.params off 4 = some t) :
    step s = .next ((State.hostWrite t v { s with turns := rest }).respond .done) :=
  (step_host hturns).trans (congrArg _ (State.access_write (s := { s with turns := rest }) htarget v))

/-- While BUSY = 1 a write to CMD, a parameter register or a buffer entry sets OVR only (20_memory R75). -/
theorem State.hostWrite_dropped {s : State} {t : Target} (hbusy : s.busy = true) (ht : droppedWhileBusy t = true) (v : Word) :
    s.hostWrite t v = { s with ovr := true } := by simp [State.hostWrite, hbusy, ht]

/-- The read-only registers (20_memory R73). -/
def readOnlyRegs : List Reg := [.result, .frameLen, .crc, .rsp]

/-- A write to a read-only register is ignored (20_memory R73; log 10). -/
theorem State.hostWrite_readOnly {r : Reg} (h : r ∈ readOnlyRegs) (v : Word) (s : State) : s.hostWrite (.reg r) v = s := by
  simp only [readOnlyRegs, List.mem_cons, List.not_mem_nil, or_false] at h
  rcases h with rfl | rfl | rfl | rfl <;> simp [State.hostWrite, droppedWhileBusy]

/-- The parameter registers, RX_LEN included (20_memory R73, R75). -/
def paramRegs : List Reg :=
  [.devAddr, .waddr, .ioaddr, .opcode, .mode, .param1, .param2, .dlen, .wrLen, .rdLen, .crcLen, .respLen, .rxLen]

/-- While BUSY = 0 a parameter register takes the written value in its defined fields (20_memory R73). -/
theorem State.hostWrite_param {s : State} {r : Reg} (hbusy : s.busy = false) (h : r ∈ paramRegs) (v : Word) :
    s.hostWrite (.reg r) v = s.writeParam r v := by
  cases r with
  | ctrl | status | cmd | result | frameLen | crc | rsp => exact absurd h (by decide)
  | _ => simp [State.hostWrite, hbusy]

/-- While BUSY = 0 a buffer entry takes bits [7:0] (20_memory R73). -/
theorem State.hostWrite_entry {s : State} (hbusy : s.busy = false) (b : Buf) (i : Nat) (v : Word) :
    s.hostWrite (.entry b i) v = s.setBufByte b i (v.extractLsb' 0 8) := by simp [State.hostWrite, hbusy]

/-- Settles O53. -/
theorem readOnlyRegistersIgnoreWrites : Obligations.ReadOnlyRegistersIgnoreWrites := by
  intro s off v rest hmem hturns
  obtain ⟨r, hr, rfl⟩ := List.mem_map.1 (show off ∈ readOnlyRegs.map Reg.offset from hmem)
  rw [step_write hturns (target_reg _ r), State.hostWrite_readOnly hr]
  rfl

/-- CMD and the parameter registers stand at 0x008, 0x010 to 0x03C and 0x044, and a busy write to them is dropped
(20_memory R75). -/
theorem exists_droppedReg {off : Nat} (haligned : off % 4 = 0)
    (hoff : off = 0x008 ∨ (0x010 ≤ off ∧ off ≤ 0x03C) ∨ off = 0x044) :
    ∃ r : Reg, off = r.offset ∧ droppedWhileBusy (.reg r) = true := by
  obtain ⟨r, hr⟩ := Option.isSome_iff_exists.1 ((regAt_isSome_iff haligned).2 (by omega))
  obtain rfl := regAt_eq_some_iff.1 hr
  refine ⟨r, rfl, ?_⟩
  revert hoff
  cases r <;> decide

/-- Settles O51. -/
theorem busyWritesAreDroppedAndSetOvr : Obligations.BusyWritesAreDroppedAndSetOvr := by
  intro s off v rest hp hbusy hturns
  refine ⟨fun h => ?_, ?_, ?_⟩
  · obtain ⟨t, htarget, ht⟩ : ∃ t, target s.params off 4 = some t ∧ droppedWhileBusy t = true := by
      rcases h with ⟨haligned, hoff⟩ | ⟨b, i, hi, rfl⟩
      · obtain ⟨r, rfl, hr⟩ := exists_droppedReg haligned hoff
        exact ⟨.reg r, target_reg _ r, hr⟩
      · exact ⟨.entry b i, target_entry hp hi, rfl⟩
    rw [step_write hturns htarget, State.hostWrite_dropped (s := { s with turns := rest }) hbusy ht]
    rfl
  · rintro rfl
    exact (ctrlAndStatusWritesTakeEffectAnyTime s v rest).1 hturns
  · rintro rfl
    exact (ctrlAndStatusWritesTakeEffectAnyTime s v rest).2 hturns

/-! ## Reading back what was written (20_memory R73, R76, 10_state R61) -/

/-- The low k bits of a word, extended again, are the word under their mask. -/
theorem zeroExtend_extractLsb'_zero (v : Word) {k : Nat} (hk : k ≤ 32) :
    (v.extractLsb' 0 k).zeroExtend 32 = v &&& BitVec.ofNat 32 (2 ^ k - 1) := by
  have hmask : 2 ^ k - 1 < 2 ^ 32 := by
    have := Nat.pow_le_pow_right (n := 2) (by decide) hk
    omega
  have hlt : v.toNat % 2 ^ k < 2 ^ 32 := lt_of_le_of_lt (Nat.mod_le _ _) v.isLt
  apply BitVec.eq_of_toNat_eq
  simp only [BitVec.toNat_setWidth, BitVec.extractLsb'_toNat, BitVec.toNat_and, BitVec.toNat_ofNat, Nat.shiftRight_zero,
    Nat.mod_eq_of_lt hmask, Nat.and_two_pow_sub_one_eq_mod, Nat.mod_eq_of_lt hlt]

/-- The defined bits of CTRL and of the parameter registers (10_state R31, R41 to R54). -/
def Reg.definedBits : Reg → Word
  | .ctrl => 0x71#32
  | .devAddr => 0x7F#32
  | .waddr | .ioaddr | .param1 | .param2 => 0xFFFF#32
  | .dlen => 0xFFFFFFFF#32
  | _ => 0xFF#32

theorem State.writeParam_regWord {r : Reg} (h : r ∈ paramRegs) (v : Word) (s : State) :
    (s.writeParam r v).regWord r = v &&& r.definedBits := by
  cases r with
  | ctrl | status | cmd | result | frameLen | crc | rsp => exact absurd h (by decide)
  | dlen => exact (BitVec.and_allOnes (x := v)).symm
  | _ => exact zeroExtend_extractLsb'_zero v (by decide)

theorem State.writeCtrl_ctrlWord (v : Word) (s : State) : (s.writeCtrl v).ctrlWord = v &&& 0x71#32 := by
  refine BitVec.eq_of_getLsbD_eq fun i hi => ?_
  rw [State.ctrlWord_getLsbD, BitVec.getLsbD_and]
  interval_cases i <;> simp [State.writeCtrl]

/-- A write that keeps the parameters, BUSY and the record, and a read of what it wrote, leave the two responses. -/
theorem State.writeThenRead_hostLog {s : State} {off : Nat} {t : Target} {v w : Word} (hbusy : s.busy = false)
    (htarget : target s.params off 4 = some t) (hsame : SameCommand s (s.hostWrite t v))
    (hlog : (s.hostWrite t v).hostLog = s.hostLog) (hword : (s.hostWrite t v).targetWord t = w) :
    ((s.access (.write off 4 v)).access (.read off 4)).hostLog = s.hostLog ++ [.done, .data w] := by
  rw [State.access_write htarget]
  have hread : target ((s.hostWrite t v).respond .done).params off 4 = some t := by
    rwa [State.respond_params, hsame.params]
  have hidle : ((s.hostWrite t v).respond .done).busy = false := by rw [State.respond_busy, hsame.busy, hbusy]
  have hseen : ((s.hostWrite t v).respond .done).targetWord t = w := by rw [← hword]; cases t <;> rfl
  rw [State.access_read hread, State.hostRead_live (.inl hidle), hseen]
  simp [State.respond, hlog]

theorem State.writeParam_sameCommand (r : Reg) (v : Word) (s : State) : SameCommand s (s.writeParam r v) := by
  cases r <;> exact ⟨rfl, rfl, rfl, rfl, rfl, rfl, rfl, rfl⟩

theorem State.writeParam_hostLog (r : Reg) (v : Word) (s : State) : (s.writeParam r v).hostLog = s.hostLog := by
  cases r <;> rfl

theorem State.setBufByte_sameCommand (s : State) (b : Buf) (i : Nat) (v : Byte) : SameCommand s (s.setBufByte b i v) := by
  constructor <;> simp

/-- A parameter register written while BUSY = 0 reads back the defined bits of the word. -/
theorem State.readBack_param {s : State} (hbusy : s.busy = false) {r : Reg} (hr : r ∈ paramRegs) (v : Word) :
    ((s.access (.write r.offset 4 v)).access (.read r.offset 4)).hostLog =
      s.hostLog ++ [.done, .data (v &&& r.definedBits)] := by
  have hwrite := State.hostWrite_param hbusy hr v
  exact State.writeThenRead_hostLog hbusy (target_reg _ r) (hwrite ▸ s.writeParam_sameCommand r v)
    (hwrite ▸ s.writeParam_hostLog r v) (hwrite ▸ State.writeParam_regWord hr v s)

theorem State.readBack_ctrl {s : State} (hbusy : s.busy = false) (v : Word) :
    ((s.access (.write 0x000 4 v)).access (.read 0x000 4)).hostLog = s.hostLog ++ [.done, .data (v &&& 0x71#32)] := by
  have hwrite : s.hostWrite (.reg .ctrl) v = s.writeCtrl v := by simp [State.hostWrite, droppedWhileBusy]
  exact State.writeThenRead_hostLog hbusy (target_reg _ .ctrl) (hwrite ▸ ⟨rfl, rfl, rfl, rfl, rfl, rfl, rfl, rfl⟩)
    (hwrite ▸ rfl) (hwrite ▸ s.writeCtrl_ctrlWord v)

theorem State.readBack_entry {s : State} (hp : s.params.legal = true) (hbusy : s.busy = false) {b : Buf} {i : Nat}
    (hi : i < b.size s.params) (v : Word) :
    ((s.access (.write (b.offset i) 4 v)).access (.read (b.offset i) 4)).hostLog =
      s.hostLog ++ [.done, .data (v &&& 0xFF#32)] := by
  have hwrite := State.hostWrite_entry hbusy b i v
  refine State.writeThenRead_hostLog hbusy (target_entry hp hi) (hwrite ▸ s.setBufByte_sameCommand b i _)
    (hwrite ▸ s.setBufByte_hostLog b i _) ?_
  rw [hwrite, State.targetWord, State.setBufByte_bufByte_same _ hi]
  exact zeroExtend_extractLsb'_zero v (by decide)

/-- While BUSY = 0 the step of a parameter register's write takes the word's defined fields and changes nothing else. -/
theorem step_write_param {s : State} {r : Reg} {rest : List Turn} {v : Word} (hbusy : s.busy = false) (hr : r ∈ paramRegs)
    (hturns : s.turns = .host (.write r.offset 4 v) :: rest) :
    step s = .next { s.writeParam r v with turns := rest, hostLog := s.hostLog ++ [.done] } := by
  rw [step_write hturns (target_reg _ r), State.hostWrite_param (s := { s with turns := rest }) hbusy hr]
  cases r <;> rfl

/-- While BUSY = 0 the step of a buffer entry's write stores bits [7:0] there and changes nothing else. -/
theorem step_write_entry {s : State} {b : Buf} {i : Nat} {rest : List Turn} {v : Word} (hp : s.params.legal = true)
    (hbusy : s.busy = false) (hi : i < b.size s.params) (hturns : s.turns = .host (.write (b.offset i) 4 v) :: rest) :
    ∃ t, step s = .next t ∧ StoresAt s t b i [v.extractLsb' 0 8] ∧
      t = { s with turns := rest, mem := t.mem, hostLog := s.hostLog ++ [.done] } := by
  have hwrite := State.hostWrite_entry (s := { s with turns := rest }) hbusy b i v
  refine ⟨_, step_write hturns (target_entry hp hi), ?_, ?_⟩ <;> rw [hwrite]
  · exact State.setBufBytes_storesAt (s := { s with turns := rest }) (v := [v.extractLsb' 0 8]) (by simpa using hi)
  · obtain ⟨m, hm⟩ := State.setBufByte_frame { s with turns := rest } b i (v.extractLsb' 0 8)
    rw [hm]
    rfl

/-- Settles O54: both tables of the statement are CTRL and then the parameter registers, with their masks or what a write makes
of the state. -/
theorem writtenRegistersAndEntriesReadBack : Obligations.WrittenRegistersAndEntriesReadBack := by
  refine ⟨fun s off v mask hp hbusy h => ?_, fun s u off v rest hbusy hturns hmem => ?_,
    fun s b i v rest hp hbusy hi hturns => step_write_entry hp hbusy hi hturns⟩
  · rcases h with hmem | ⟨rfl, b, i, hi, rfl⟩
    · have htable : (off, mask) ∈ (0x000, 0x71#32) :: paramRegs.map fun r => (r.offset, r.definedBits) := hmem
      rcases List.mem_cons.1 htable with he | hparam
      · cases he
        exact State.readBack_ctrl hbusy v
      · obtain ⟨r, hr, rfl, rfl⟩ := exists_reg_of_mem_table hparam
        exact State.readBack_param hbusy hr v
    · exact State.readBack_entry hp hbusy hi v
  · have htable : (off, u) ∈ (0x000, s.writeCtrl v) :: paramRegs.map fun r => (r.offset, s.writeParam r v) := hmem
    rcases List.mem_cons.1 htable with he | hparam
    · cases he
      exact (ctrlAndStatusWritesTakeEffectAnyTime s v rest).1 hturns
    · obtain ⟨r, hr, rfl, rfl⟩ := exists_reg_of_mem_table hparam
      exact step_write_param hbusy hr hturns

end Sys2Proof.Machine
end

section
/-! Runs of an accepted command: what its lines and the host's accesses keep, which buffers a line writes, and that the inputs stay
as they were (20_memory R90, 10_state R63). -/

namespace Sys2Proof.Machine

/-! ## One induction for what a run of a busy controller keeps -/

/-- The line the controller's next step runs: the first line of a word just accepted, or its completion with BAD_COMMAND
(60_exceptions R241); with no command running, `accepted`, which is no line. -/
def State.nextLine (s : State) : Pos :=
  match s.seq with
  | none => .accepted
  | some q =>
    match q.pos with
    | .accepted =>
      match decode q.word with
      | .ok i => firstLine i
      | .error _ => .complete .badCommand
    | p => p

/-- The controller's step is the step of one line. -/
theorem State.ctrlStep_eq_lineStep (reply : Option BusReply) (s : State) :
    State.ctrlStep reply s = lineStep s.nextLine reply s := by
  cases hq : s.seq with
  | none => simp [State.ctrlStep_idle hq, State.nextLine, hq, lineStep]
  | some q =>
    by_cases hp : q.pos = .accepted
    · rw [State.ctrlStep_accepted hq hp]
      cases hd : decode q.word <;> simp [State.nextLine, hq, hp, hd, lineStep]
    · rw [State.ctrlStep_line hq hp]
      simp [State.nextLine, hq]

/-- A command starts by going to its first line, or goes on from where it was. -/
theorem State.begin_cases (p : Pos) (s : State) : s.begin p = s.goto p ∨ s.begin p = s := by
  cases hq : s.seq with
  | none => exact .inr (by cases s; simp_all [State.begin])
  | some q =>
    by_cases hp : q.pos = .accepted
    · exact .inl (by simp [State.begin, State.goto, hq, hp])
    · exact .inr (by cases s; simp_all [State.begin])

/-- A property of BUSY and DONE while a command runs is kept by every update of the sequencer: completion alone writes them,
and ends the command (60_exceptions R242). -/
theorem whileRunning_lineInvariant (Q : Bool → Bool → Prop) :
    LineInvariant fun s => s.seq.isSome = true → Q s.busy s.done where
  goto _ _ hs h := hs (by simpa using h)
  complete _ _ _ h := by simp at h
  setPhase _ _ hs := hs
  setAttempts _ _ hs := hs
  setRxLen _ _ hs := hs
  setFrameLen _ _ hs := hs
  setCrc _ _ hs := hs
  noFrame _ hs := hs
  validRsp _ _ _ hs := hs
  store _ _ _ _ hs h := by simpa using hs (by simpa using h)
  bus _ _ _ _ hs := hs

section
variable {I : State → Prop} (line : ∀ (s : State) (p : Pos) (reply : Option BusReply), I s → I (lineStep p reply s))
  (access : ∀ (s : State) (a : Access), s.busy = true → I s → I (s.access a))
include line access

/-- What every line keeps, and every host access to a busy controller, every move but the reset keeps, along with BUSY. -/
theorem advance_keeps {s : State} {q : Seq} {x : Turn} (hq : s.seq = some q) (hx : x.notReset = true)
    (hbusy : s.seq.isSome = true → s.busy = true) (hs : I s) :
    ((State.advance x s).seq.isSome = true → (State.advance x s).busy = true) ∧ I (State.advance x s) := by
  cases x with
  | reset => cases hx
  | host a =>
    have hb : s.busy = true := hbusy (by simp [hq])
    obtain ⟨ie, rt, d, o, l, n, he⟩ := State.access_busy hb a
    have hb' : (s.access a).busy = true := by rw [he]; exact hb
    exact ⟨fun _ => hb', access s a hb hs⟩
  | ctrl reply =>
    have he : State.advance (.ctrl reply) s = lineStep s.nextLine reply s := State.ctrlStep_eq_lineStep reply s
    rw [he]
    exact ⟨(whileRunning_lineInvariant fun busy _ => busy = true).lineStep _ reply hbusy, line s _ reply hs⟩

/-- The same for a command's run over moves without a reset. -/
theorem exec_keeps (turns : ∀ (s : State) (ts : List Turn), I s → I { s with turns := ts })
    (goto : ∀ (s : State) (p : Pos), I s → I (s.goto p)) {s t : State} {i : Instr} (hbusy : s.busy = true)
    (hturns : s.turns.all Turn.notReset = true) (hs : I s) (h : exec i s = .next t) : I t := by
  have run : ∀ u : State, u.busy = true → I u → I (State.runTurns s.turns u) := fun u hub hu =>
    (State.runTurns_induct (I := fun u => (u.seq.isSome = true → u.busy = true) ∧ I u)
      (fun u ts h => ⟨h.1, turns u ts h.2⟩) (fun _ _ _ hq hx h => advance_keeps line access hq hx h.1 h.2) hturns
      ⟨fun _ => hub, hu⟩).2
  rw [exec_eq] at h
  cases h
  rcases State.begin_cases (firstLine i) s with he | he <;> rw [State.runCommand, he]
  · exact run _ hbusy (goto s _ hs)
  · exact run _ hbusy hs

end

/-! ## Which buffers a line writes -/

theorem OnlyTouches.of_mem_eq {s t : State} (hmem : t.mem = s.mem) (hepoch : t.epoch = s.epoch) (bufs : List Buf) :
    OnlyTouches bufs s t := fun off _ => by simp [State.byteAt, hmem, hepoch]

theorem OnlyTouches.trans {bufs : List Buf} {s t u : State} (h : OnlyTouches bufs s t) (hparams : t.params = s.params)
    (h' : OnlyTouches bufs t u) : OnlyTouches bufs s u := fun off hoff =>
  (h' off (by rwa [hparams])).trans (h off hoff)

/-- A store touches its own buffer only, whatever its index (20_memory R84; log 14). -/
theorem OnlyTouches.setBufByte {bufs : List Buf} {b : Buf} (hb : b ∈ bufs) (s : State) (i : Nat) (v : Byte) :
    OnlyTouches bufs s (s.setBufByte b i v) := fun off hoff => by
  by_cases hi : i < b.size s.params
  · exact State.setBufByte_byteAt_other s v (hoff b hb i hi)
  · simp [State.setBufByte, hi]

theorem OnlyTouches.setBufBytes {bufs : List Buf} {b : Buf} (hb : b ∈ bufs) (s : State) (a : Nat) (v : List Byte) :
    OnlyTouches bufs s (s.setBufBytes b a v) := by
  induction v generalizing a s with
  | nil => exact OnlyTouches.of_mem_eq rfl rfl _
  | cons x rest ih => exact (OnlyTouches.setBufByte hb s a x).trans (by simp) (ih _ _)

theorem OnlyTouches.busFrame {s t : State} (h : BusFrame s t) (bufs : List Buf) : OnlyTouches bufs s t := by
  obtain ⟨pd, tr, ts, rfl⟩ := h
  exact OnlyTouches.of_mem_eq rfl rfl _

theorem OnlyTouches.retryStep (bufs : List Buf) (f : List Byte) (p : RetryPos) (reply : Option BusReply) (s : State) :
    OnlyTouches bufs s (retryStep f p reply s).1 := by
  obtain ⟨pd, tr, ts, ph, at', h⟩ := retryStep_frame f p reply s
  rw [h]
  exact OnlyTouches.of_mem_eq rfl rfl _

theorem OnlyTouches.completeOrGoto (bufs : List Buf) (s : State) (c : Prop) [Decidable c] (code : ResultCode) (p : Pos) :
    OnlyTouches bufs s (if c then s.complete code else s.goto p) := by
  split <;> exact OnlyTouches.of_mem_eq rfl rfl _

/-- A calling line touches what the primitive's step touches, when its own part writes no buffer. -/
theorem OnlyTouches.callLine {Q A : Type} {bufs : List Buf} {s : State} {x : State × Flow Q A} {inside : Q → Pos}
    {k : A → State → State} (hx : OnlyTouches bufs s x.1) (hk : ∀ a t, (k a t).mem = t.mem ∧ (k a t).epoch = t.epoch) :
    OnlyTouches bufs s (callLine x inside k) := by
  obtain ⟨t, q | a⟩ := x
  · exact hx
  · obtain ⟨hmem, hepoch⟩ := hk a t
    intro off hoff
    simpa [State.byteAt, hmem, hepoch] using hx off hoff

/-- The buffers that a line of a command may write (41_framer R136, 42_bus R171, 43_transaction R195, 44_wake_sleep R228). -/
def Pos.outputBufs : Pos → List Buf
  | .marshal _ | .sleep _ _ => [.txbuf]
  | .busRead _ => [.rxbuf]
  | .execute _ _ => [.txbuf, .rxbuf]
  | .accepted | .crc _ _ | .unmarshal _ | .busWrite _ | .resync _ | .wake _ | .complete _ => []

theorem crcLine_onlyTouches (src : Buf) (l : CrcLine) (s : State) : OnlyTouches [] s (crcLine src l s) := by
  cases l with
  | check size => exact OnlyTouches.completeOrGoto _ s _ _ _
  | _ => exact OnlyTouches.of_mem_eq rfl rfl _

theorem marshalLine_onlyTouches (l : MarshalLine) (s : State) : OnlyTouches [.txbuf] s (marshalLine l s) := by
  cases l with
  | check r => cases r <;> exact OnlyTouches.of_mem_eq rfl rfl _
  | store f n => exact OnlyTouches.setBufBytes (by decide) s 0 f
  | _ => exact OnlyTouches.of_mem_eq rfl rfl _

theorem unmarshalLine_onlyTouches (l : UnmarshalLine) (s : State) : OnlyTouches [] s (unmarshalLine l s) := by
  cases l with
  | check n => exact OnlyTouches.completeOrGoto _ s _ _ _
  | checkFrame n v => cases v <;> exact OnlyTouches.of_mem_eq rfl rfl _
  | _ => exact OnlyTouches.of_mem_eq rfl rfl _

theorem busWriteLine_onlyTouches (l : BusWriteLine) (reply : Option BusReply) (s : State) :
    OnlyTouches [] s (busWriteLine l reply s) := by
  cases l with
  | seqCheck | lenCheck => exact OnlyTouches.completeOrGoto _ s _ _ _
  | transfer p => exact OnlyTouches.callLine (OnlyTouches.busFrame (busWriteStep_frame ..) _) fun _ _ => ⟨rfl, rfl⟩
  | result ok => cases ok <;> exact OnlyTouches.of_mem_eq rfl rfl _
  | _ => exact OnlyTouches.of_mem_eq rfl rfl _

theorem busReadLine_onlyTouches (l : BusReadLine) (reply : Option BusReply) (s : State) :
    OnlyTouches [.rxbuf] s (busReadLine l reply s) := by
  cases l with
  | seqCheck | lenCheck => exact OnlyTouches.completeOrGoto _ s _ _ _
  | transfer n p => exact OnlyTouches.callLine (OnlyTouches.busFrame (busReadStep_frame ..) _) fun _ _ => ⟨rfl, rfl⟩
  | result n v => cases v <;> exact OnlyTouches.of_mem_eq rfl rfl _
  | store n v => exact OnlyTouches.setBufBytes (by decide) s 0 v
  | _ => exact OnlyTouches.of_mem_eq rfl rfl _

theorem resyncLine_onlyTouches (l : ResyncLine) (reply : Option BusReply) (s : State) :
    OnlyTouches [] s (resyncLine l reply s) := by
  cases l with
  | setPhase => exact OnlyTouches.of_mem_eq rfl rfl _
  | run p =>
    exact OnlyTouches.callLine (OnlyTouches.busFrame (resyncStep_frame ..) _) fun ok _ => by cases ok <;> exact ⟨rfl, rfl⟩

theorem wakeLine_onlyTouches (l : WakeLine) (reply : Option BusReply) (s : State) : OnlyTouches [] s (wakeLine l reply s) := by
  cases l with
  | setPhase => exact OnlyTouches.of_mem_eq rfl rfl _
  | pulse => cases reply <;> exact OnlyTouches.of_mem_eq rfl rfl _

theorem sleepLine_onlyTouches (idle : Bool) (l : SleepLine) (reply : Option BusReply) (s : State) :
    OnlyTouches [.txbuf] s (sleepLine idle l reply s) := by
  cases l with
  | seqCheck => exact OnlyTouches.completeOrGoto _ s _ _ _
  | store f => exact OnlyTouches.setBufBytes (by decide) s 0 f
  | write p => exact OnlyTouches.callLine (OnlyTouches.retryStep _ _ p reply s) fun _ _ => ⟨rfl, rfl⟩
  | result w =>
    simp only [sleepLine]
    split <;> exact OnlyTouches.of_mem_eq rfl rfl _
  | _ => exact OnlyTouches.of_mem_eq rfl rfl _

theorem executeLine_onlyTouches (wakeFirst : Bool) (l : ExecuteLine) (reply : Option BusReply) (s : State) :
    OnlyTouches [.txbuf, .rxbuf] s (executeLine wakeFirst l reply s) := by
  cases l with
  | seqCheck | lenCheck | shortCheck c | longCheck c | restartCheck c v => exact OnlyTouches.completeOrGoto _ s _ _ _
  | check r => cases r <;> exact OnlyTouches.of_mem_eq rfl rfl _
  | countResult v | bodyResult c v => cases v <;> exact OnlyTouches.of_mem_eq rfl rfl _
  | checkFrame c v => cases v <;> exact OnlyTouches.of_mem_eq rfl rfl _
  | pulse => cases reply <;> exact OnlyTouches.of_mem_eq rfl rfl _
  | store f => exact OnlyTouches.setBufBytes (by decide) s 0 f
  | storeCount c => exact OnlyTouches.setBufByte (by decide) s 0 c
  | storeBody c v =>
    simp only [executeLine]
    split <;> exact OnlyTouches.setBufBytes (by decide) s _ v
  | write p => exact OnlyTouches.callLine (OnlyTouches.retryStep _ _ p reply s) fun _ _ => ⟨rfl, rfl⟩
  | readCount p | readBody c p =>
    exact OnlyTouches.callLine (OnlyTouches.busFrame (busReadStep_frame ..) _) fun _ _ => ⟨rfl, rfl⟩
  | failResync p =>
    exact OnlyTouches.callLine (OnlyTouches.busFrame (resyncStep_frame ..) _) fun ok _ => by cases ok <;> exact ⟨rfl, rfl⟩
  | result w =>
    simp only [executeLine]
    split <;> exact OnlyTouches.of_mem_eq rfl rfl _
  | _ => exact OnlyTouches.of_mem_eq rfl rfl _

/-- A line writes only its command's output buffers. -/
theorem lineStep_onlyTouches (p : Pos) (reply : Option BusReply) (s : State) :
    OnlyTouches p.outputBufs s (lineStep p reply s) := by
  cases p with
  | accepted => exact OnlyTouches.of_mem_eq rfl rfl _
  | crc src l => exact crcLine_onlyTouches src l s
  | marshal l => exact marshalLine_onlyTouches l s
  | unmarshal l => exact unmarshalLine_onlyTouches l s
  | busWrite l => exact busWriteLine_onlyTouches l reply s
  | busRead l => exact busReadLine_onlyTouches l reply s
  | resync l => exact resyncLine_onlyTouches l reply s
  | execute wakeFirst l => exact executeLine_onlyTouches wakeFirst l reply s
  | wake l => exact wakeLine_onlyTouches l reply s
  | sleep idle l => exact sleepLine_onlyTouches idle l reply s
  | complete code => exact OnlyTouches.of_mem_eq rfl rfl _

/-- No line writes DBUF (20_memory R90). -/
theorem lineStep_dbuf {s : State} (hp : s.params.legal = true) (p : Pos) (reply : Option BusReply) {i : Nat}
    (hi : i < s.params.dbufSize) : (lineStep p reply s).bufByte .dbuf i = s.bufByte .dbuf i := by
  have hout : ∀ b ∈ p.outputBufs, b ≠ .dbuf := by cases p <;> simp [Pos.outputBufs]
  exact lineStep_onlyTouches p reply s _ fun b hb j hj => Buf.offset_ne hp (hout b hb).symm hi hj

/-! ## The inputs of a running command -/

/-- The inputs but DBUF: the parameters, the command word and the parameter registers (20_memory R90). -/
def State.inputRegs (s : State) :
    Params × Word × BitVec 7 × Half × Half × Byte × Byte × Half × Half × Word × Byte × Byte × Byte × Byte :=
  (s.params, s.cmd, s.devAddr, s.waddr, s.ioaddr, s.opcode, s.mode, s.param1, s.param2, s.dlen, s.wrLen, s.rdLen, s.crcLen,
    s.respLen)

/-- A command running in t has the snapshot of the one in s (10_state R63). -/
def SameSnapshot (s t : State) : Prop :=
  ∀ q, t.seq = some q → ∃ q', s.seq = some q' ∧ q.word = q'.word ∧ q.retries = q'.retries

theorem sameInputs_iff {s t : State} : SameInputs s t ↔
    t.inputRegs = s.inputRegs ∧ (∀ i, i < s.params.dbufSize → t.bufByte .dbuf i = s.bufByte .dbuf i) ∧ SameSnapshot s t := by
  simp only [SameInputs, SameSnapshot, State.inputRegs, Prod.mk.injEq, and_assoc]

/-- No update of the sequencer writes an input register. -/
theorem inputRegs_lineInvariant (s : State) : LineInvariant fun t => t.inputRegs = s.inputRegs where
  goto _ _ ht := ht
  complete _ _ ht := ht
  setPhase _ _ ht := ht
  setAttempts _ _ ht := ht
  setRxLen _ _ ht := ht
  setFrameLen _ _ ht := ht
  setCrc _ _ ht := ht
  noFrame _ ht := ht
  validRsp _ _ _ ht := ht
  store t b a v ht := by
    obtain ⟨m, hm⟩ := State.setBufBytes_frame b a v t
    rw [hm]
    exact ht
  bus _ _ _ _ ht := ht

/-- The sequencer moves the position of a running command and keeps its snapshot, until it ends the command. -/
theorem sameSnapshot_lineInvariant (s : State) : LineInvariant (SameSnapshot s) where
  goto t p ht q hq := by
    obtain ⟨q', hq', rfl⟩ := Option.map_eq_some_iff.1 (t.goto_seq p ▸ hq)
    exact ht q' hq'
  complete _ _ _ _ hq := nomatch hq
  setPhase _ _ ht := ht
  setAttempts _ _ ht := ht
  setRxLen _ _ ht := ht
  setFrameLen _ _ ht := ht
  setCrc _ _ ht := ht
  noFrame _ ht := ht
  validRsp _ _ _ ht := ht
  store t b a v ht q hq := ht q (by simpa using hq)
  bus _ _ _ _ ht := ht

theorem lineStep_sameInputs {s t : State} (hp : s.params.legal = true) (p : Pos) (reply : Option BusReply)
    (h : SameInputs s t) : SameInputs s (lineStep p reply t) := by
  obtain ⟨hregs, hdbuf, hsnap⟩ := sameInputs_iff.1 h
  have hparams : t.params = s.params := congrArg Prod.fst hregs
  refine sameInputs_iff.2 ⟨(inputRegs_lineInvariant s).lineStep p reply hregs, fun i hi => ?_,
    (sameSnapshot_lineInvariant s).lineStep p reply hsnap⟩
  rw [lineStep_dbuf (by rwa [hparams]) p reply (by rwa [hparams]), hdbuf i hi]

/-- Settles O44: no line writes an input or the snapshot, and a busy controller drops the host's writes to them. -/
theorem inputsAreStableWhileBusy : Obligations.InputsAreStableWhileBusy := by
  intro s t i hp hbusy hturns _ h
  have hself : SameInputs s s := sameInputs_iff.2 ⟨rfl, fun _ _ => rfl, fun q hq => ⟨q, hq, rfl, rfl⟩⟩
  refine exec_keeps (I := SameInputs s) (fun _ p reply hu => lineStep_sameInputs hp p reply hu) (fun u a hub hu => ?_)
    (fun _ _ hu => hu) (fun u p hu => ?_) hbusy hturns hself h
  · obtain ⟨ie, rt, d, o, l, n, he⟩ := State.access_busy hub a
    rw [he]
    exact hu
  · obtain ⟨hregs, hdbuf, hsnap⟩ := sameInputs_iff.1 hu
    exact sameInputs_iff.2 ⟨hregs, hdbuf, (sameSnapshot_lineInvariant s).goto u p hsnap⟩

end Sys2Proof.Machine
end

section
/-! Noninterference: what the host can change while a command runs, the command neither reads nor writes (20_memory R75, R90). -/

namespace Sys2Proof.Machine

/-! ## The state without what the host can change -/

/-- A primitive's step with its state blinded: the position or the answer is the same. -/
def hostBlindFlow {P R : Type} (x : State × Flow P R) : State × Flow P R := (x.1.hostBlind, x.2)

@[simp] theorem State.hostBlind_params (s : State) : s.hostBlind.params = s.params := rfl

/-- A calling line carries over to the blinded state when the primitive's step and its own part do. -/
theorem callLine_hostBlind {Q A : Type} {x y : State × Flow Q A} {inside : Q → Pos} {k : A → State → State}
    (hx : y = hostBlindFlow x) (hk : ∀ a t, k a t.hostBlind = (k a t).hostBlind) :
    callLine y inside k = (callLine x inside k).hostBlind := by
  obtain ⟨t, q | a⟩ := x <;> rw [hx]
  · rfl
  · exact hk a t

theorem inCall_hostBlind {P R Q A : Type} {x y : State × Flow Q A} {inside : Q → P} {k : A → State → State × Flow P R}
    (hx : y = hostBlindFlow x) (hk : ∀ a t, k a t.hostBlind = hostBlindFlow (k a t)) :
    inCall y inside k = hostBlindFlow (inCall x inside k) := by
  obtain ⟨t, q | a⟩ := x <;> rw [hx]
  · rfl
  · exact hk a t

theorem onBus_hostBlind {P R : Type} {a : Action} {reply : Option BusReply} {here : P} {s : State}
    {k : BusReply → State → State × Flow P R} (hk : ∀ r t, k r t.hostBlind = hostBlindFlow (k r t)) :
    onBus a reply here s.hostBlind k = hostBlindFlow (onBus a reply here s k) := by
  cases reply with
  | none => rfl
  | some r => exact hk r (s.answered a r)

/-! ## The primitives -/

theorem sendByteStep_hostBlind (b : Byte) (p : SendPos) (reply : Option BusReply) (s : State) :
    sendByteStep b p reply s.hostBlind = hostBlindFlow (sendByteStep b p reply s) := by
  rcases p with _ | a | a | _
  · simp only [sendByteStep]
    exact onBus_hostBlind fun _ _ => rfl
  · cases a <;> rfl
  · cases a
    · rfl
    · simp only [sendByteStep]
      exact onBus_hostBlind fun _ _ => rfl
    · rfl
  · rfl

theorem startTransfer_hostBlind {P R : Type} (reply : Option BusReply) (here granted : P) (fail : R) (s : State) :
    startTransfer reply here granted fail s.hostBlind = hostBlindFlow (startTransfer reply here granted fail s) :=
  onBus_hostBlind fun r _ => by cases r.start <;> rfl

theorem sendOrFail_hostBlind {P R : Type} (b : Byte) (p : SendPos) (reply : Option BusReply) (inside : SendPos → P) (sent : P)
    (fail : R) (s : State) :
    sendOrFail b p reply inside sent fail s.hostBlind = hostBlindFlow (sendOrFail b p reply inside sent fail s) :=
  inCall_hostBlind (sendByteStep_hostBlind b p reply s) fun _ _ => rfl

theorem busWriteStep_hostBlind (wa : Half) (payload : List Byte) (p : WritePos) (reply : Option BusReply) (s : State) :
    busWriteStep wa payload p reply s.hostBlind = hostBlindFlow (busWriteStep wa payload p reply s) := by
  cases p with
  | start => exact startTransfer_hostBlind ..
  | addr p | byte b rest p => exact sendOrFail_hostBlind ..
  | forBytes l => cases l <;> rfl
  | stop =>
    simp only [busWriteStep]
    exact onBus_hostBlind fun _ _ => rfl
  | _ => rfl

theorem busReadStep_hostBlind (wa : Half) (n : Nat) (p : ReadPos) (reply : Option BusReply) (s : State) :
    busReadStep wa n p reply s.hostBlind = hostBlindFlow (busReadStep wa n p reply s) := by
  cases p with
  | start => exact startTransfer_hostBlind ..
  | addrW p | byte b rest p | addrR p => exact sendOrFail_hostBlind ..
  | forBytes l => cases l <;> rfl
  | rstart =>
    simp only [busReadStep]
    exact onBus_hostBlind fun r _ => by cases r.rstart <;> rfl
  | rdbytes | stop v =>
    simp only [busReadStep]
    exact onBus_hostBlind fun _ _ => rfl
  | lenCheck v =>
    by_cases hv : v.length ≠ n
    · simp only [busReadStep, if_pos hv]
      exact onBus_hostBlind fun _ _ => rfl
    · simp only [busReadStep, if_neg hv]
      rfl
  | _ => rfl

theorem resyncStep_hostBlind (p : ResyncPos) (reply : Option BusReply) (s : State) :
    resyncStep p reply s.hostBlind = hostBlindFlow (resyncStep p reply s) := by
  cases p with
  | start | startAgain =>
    simp only [resyncStep]
    exact onBus_hostBlind fun r _ => by cases r.start <;> rfl
  | dummy | stop =>
    simp only [resyncStep]
    exact onBus_hostBlind fun _ _ => rfl
  | _ => rfl

/-- `WriteWithRetry` counts up to the snapshot of RETRIES, not to CTRL's field (10_state R63). -/
theorem retryStep_hostBlind (f : List Byte) (p : RetryPos) (reply : Option BusReply) (s : State) :
    retryStep f p reply s.hostBlind = hostBlindFlow (retryStep f p reply s) := by
  obtain ⟨n, l⟩ := p
  cases l with
  | write w => exact inCall_hostBlind (busWriteStep_hostBlind s.ioaddr f w reply s) fun _ _ => rfl
  | resync q => exact inCall_hostBlind (resyncStep_hostBlind q reply s) fun _ _ => rfl
  | _ => rfl

/-! ## The lines of each command -/

theorem State.setBufByte_hostBlind (s : State) (b : Buf) (i : Nat) (v : Byte) :
    s.hostBlind.setBufByte b i v = (s.setBufByte b i v).hostBlind := by
  have hsize : b.size s.hostBlind.params = b.size s.params := rfl
  by_cases hi : i < b.size s.params
  · rw [State.setBufByte, State.setBufByte, if_pos (hsize ▸ hi), if_pos hi]
    rfl
  · rw [State.setBufByte, State.setBufByte, if_neg (hsize ▸ hi), if_neg hi]

theorem State.setBufBytes_hostBlind (s : State) (b : Buf) (a : Nat) (v : List Byte) :
    s.hostBlind.setBufBytes b a v = (s.setBufBytes b a v).hostBlind := by
  induction v generalizing a s with
  | nil => rfl
  | cons x rest ih => rw [State.setBufBytes, State.setBufByte_hostBlind, ih]; rfl

/-- A line that completes or goes on carries over, its test being the same. -/
theorem completeOrGoto_hostBlind (s : State) (c : Prop) [Decidable c] (code : ResultCode) (p : Pos) :
    (if c then s.hostBlind.complete code else s.hostBlind.goto p) =
      State.hostBlind (if c then s.complete code else s.goto p) := by split <;> rfl

theorem gotoOrComplete_hostBlind (s : State) (c : Prop) [Decidable c] (code : ResultCode) (p : Pos) :
    (if c then s.hostBlind.goto p else s.hostBlind.complete code) =
      State.hostBlind (if c then s.goto p else s.complete code) := by split <;> rfl

theorem crcLine_hostBlind (src : Buf) (l : CrcLine) (s : State) : crcLine src l s.hostBlind = (crcLine src l s).hostBlind := by
  cases l with
  | check size => exact completeOrGoto_hostBlind s _ _ _
  | _ => rfl

theorem marshalLine_hostBlind (l : MarshalLine) (s : State) : marshalLine l s.hostBlind = (marshalLine l s).hostBlind := by
  cases l with
  | check r => cases r <;> rfl
  | store f n => exact congrArg (State.goto _) (s.setBufBytes_hostBlind .txbuf 0 f)
  | _ => rfl

theorem unmarshalLine_hostBlind (l : UnmarshalLine) (s : State) :
    unmarshalLine l s.hostBlind = (unmarshalLine l s).hostBlind := by
  cases l with
  | check n => exact completeOrGoto_hostBlind s _ _ _
  | checkFrame n v => cases v <;> rfl
  | _ => rfl

theorem busWriteLine_hostBlind (l : BusWriteLine) (reply : Option BusReply) (s : State) :
    busWriteLine l reply s.hostBlind = (busWriteLine l reply s).hostBlind := by
  cases l with
  | seqCheck | lenCheck => exact completeOrGoto_hostBlind s _ _ _
  | transfer p => exact callLine_hostBlind (busWriteStep_hostBlind _ _ p reply s) fun _ _ => rfl
  | result ok => cases ok <;> rfl
  | _ => rfl

theorem busReadLine_hostBlind (l : BusReadLine) (reply : Option BusReply) (s : State) :
    busReadLine l reply s.hostBlind = (busReadLine l reply s).hostBlind := by
  cases l with
  | seqCheck | lenCheck => exact completeOrGoto_hostBlind s _ _ _
  | transfer n p => exact callLine_hostBlind (busReadStep_hostBlind _ _ p reply s) fun _ _ => rfl
  | result n v => cases v <;> rfl
  | store n v => exact congrArg (State.goto _) (s.setBufBytes_hostBlind .rxbuf 0 v)
  | _ => rfl

theorem resyncLine_hostBlind (l : ResyncLine) (reply : Option BusReply) (s : State) :
    resyncLine l reply s.hostBlind = (resyncLine l reply s).hostBlind := by
  cases l with
  | setPhase => rfl
  | run p => exact callLine_hostBlind (resyncStep_hostBlind p reply s) fun ok _ => by cases ok <;> rfl

theorem wakeLine_hostBlind (l : WakeLine) (reply : Option BusReply) (s : State) :
    wakeLine l reply s.hostBlind = (wakeLine l reply s).hostBlind := by
  cases l with
  | setPhase => rfl
  | pulse => cases reply <;> rfl

theorem sleepLine_hostBlind (idle : Bool) (l : SleepLine) (reply : Option BusReply) (s : State) :
    sleepLine idle l reply s.hostBlind = (sleepLine idle l reply s).hostBlind := by
  cases l with
  | seqCheck => exact completeOrGoto_hostBlind s _ _ _
  | store f =>
    exact congrArg (fun t => (State.setFrameLen f.length t).goto (.sleep idle (.write retryStart)))
      (s.setBufBytes_hostBlind .txbuf 0 f)
  | write p => exact callLine_hostBlind (retryStep_hostBlind _ p reply s) fun _ _ => rfl
  | result w => exact gotoOrComplete_hostBlind s _ _ _
  | _ => rfl

theorem executeLine_hostBlind (wakeFirst : Bool) (l : ExecuteLine) (reply : Option BusReply) (s : State) :
    executeLine wakeFirst l reply s.hostBlind = (executeLine wakeFirst l reply s).hostBlind := by
  cases l with
  | seqCheck | lenCheck | shortCheck c | longCheck c | restartCheck c v => exact completeOrGoto_hostBlind s _ _ _
  | check r => cases r <;> rfl
  | countResult v | bodyResult c v => cases v <;> rfl
  | checkFrame c v => cases v <;> rfl
  | pulse => cases reply <;> rfl
  | store f =>
    exact congrArg (fun t => (State.setFrameLen f.length t).goto (.execute wakeFirst .ifWake))
      (s.setBufBytes_hostBlind .txbuf 0 f)
  | storeCount c =>
    exact congrArg (fun t => (State.setRxLen 1 t).goto (.execute wakeFirst (.shortCheck c))) (s.setBufByte_hostBlind .rxbuf 0 c)
  | storeBody c v =>
    simp only [executeLine, State.hostBlind_params, State.setBufBytes_hostBlind]
    split <;> rfl
  | write p => exact callLine_hostBlind (retryStep_hostBlind _ p reply s) fun _ _ => rfl
  | readCount p => exact callLine_hostBlind (busReadStep_hostBlind _ _ p reply s) fun _ _ => rfl
  | readBody c p => exact callLine_hostBlind (busReadStep_hostBlind _ _ p reply s) fun _ _ => rfl
  | failResync p => exact callLine_hostBlind (resyncStep_hostBlind p reply s) fun ok _ => by cases ok <;> rfl
  | result w => exact gotoOrComplete_hostBlind s _ _ _
  | _ => rfl

/-- No line reads or writes what the host can change while BUSY = 1. -/
theorem lineStep_hostBlind (p : Pos) (reply : Option BusReply) (s : State) :
    lineStep p reply s.hostBlind = (lineStep p reply s).hostBlind := by
  cases p with
  | accepted | complete code => rfl
  | crc src l => exact crcLine_hostBlind src l s
  | marshal l => exact marshalLine_hostBlind l s
  | unmarshal l => exact unmarshalLine_hostBlind l s
  | busWrite l => exact busWriteLine_hostBlind l reply s
  | busRead l => exact busReadLine_hostBlind l reply s
  | resync l => exact resyncLine_hostBlind l reply s
  | execute wakeFirst l => exact executeLine_hostBlind wakeFirst l reply s
  | wake l => exact wakeLine_hostBlind l reply s
  | sleep idle l => exact sleepLine_hostBlind idle l reply s

theorem ctrlStep_hostBlind (reply : Option BusReply) (s : State) :
    State.ctrlStep reply s.hostBlind = (State.ctrlStep reply s).hostBlind := by
  rw [State.ctrlStep_eq_lineStep, State.ctrlStep_eq_lineStep, ← lineStep_hostBlind]
  rfl

/-! ## Runs with and without the host's accesses -/

/-- A host access to a busy controller with DONE clear changes only what the blinding hides. -/
theorem State.access_hostBlind {s : State} (hbusy : s.busy = true) (hdone : s.done = false) (a : Access) :
    (s.access a).hostBlind = s.hostBlind ∧ (s.access a).busy = true ∧ (s.access a).done = false := by
  obtain ⟨ie, rt, d, o, l, n, he⟩ := State.access_busy hbusy a
  rw [he]
  exact ⟨by simp [State.hostBlind, hdone], hbusy, by simp [hdone]⟩

/-- Runs from states that differ only in what the host can change, with and without the host's accesses, end alike. -/
theorem runTurns_hostBlind {ts : List Turn} (hts : ts.all Turn.notReset = true) {s u : State}
    (hs : s.seq.isSome = true → s.busy = true ∧ s.done = false) (h : s.hostBlind = u.hostBlind) :
    (State.runTurns ts s).hostBlind = (State.runTurns (ts.filter fun x => !x.isHost) u).hostBlind := by
  have lines := whileRunning_lineInvariant fun busy done => busy = true ∧ done = false
  induction ts generalizing s u with
  | nil => exact h
  | cons x rest ih =>
    simp only [List.all_cons, Bool.and_eq_true] at hts
    have hseq : u.seq = s.seq := (congrArg State.seq h).symm
    cases hq : s.seq with
    | none =>
      rw [State.runTurns_idle hq, State.runTurns_idle (hseq.trans hq)]
      exact h
    | some q =>
      obtain ⟨hbusy, hdone⟩ := hs (by simp [hq])
      rw [State.runTurns_running hq]
      cases x with
      | reset => cases hts.1
      | host a =>
        obtain ⟨hblind, hbusy', hdone'⟩ := State.access_hostBlind (s := { s with turns := rest }) hbusy hdone a
        exact ih hts.2 (fun _ => ⟨hbusy', hdone'⟩) (hblind.trans h)
      | ctrl reply =>
        rw [List.filter_cons_of_pos rfl, State.runTurns_running (hseq.trans hq)]
        refine ih hts.2 ?_ ?_
        · have he : State.advance (.ctrl reply) { s with turns := rest } = lineStep s.nextLine reply { s with turns := rest } :=
            State.ctrlStep_eq_lineStep reply { s with turns := rest }
          rw [he]
          exact lines.lineStep _ reply hs
        · calc (State.ctrlStep reply { s with turns := rest }).hostBlind
              = State.ctrlStep reply s.hostBlind := (ctrlStep_hostBlind reply { s with turns := rest }).symm
            _ = State.ctrlStep reply u.hostBlind := by rw [h]
            _ = _ := ctrlStep_hostBlind reply { u with turns := rest.filter fun x => !x.isHost }

/-- Settles O43: both runs start from the same blinded state, and no line looks at what the blinding hides. -/
theorem hostAccessesDoNotDisturbARunningCommand : Obligations.HostAccessesDoNotDisturbARunningCommand := by
  intro s i _ hbusy hdone hturns
  refine ⟨_, _, exec_eq i s, exec_eq i _, ?_⟩
  refine runTurns_hostBlind hturns (fun _ => ⟨hbusy, hdone⟩) ?_
  rfl

end Sys2Proof.Machine
end

section
/-! The decoder and the encoder: a command's word is the one word whose fields are the command's (30_encoding R95 to R99), a row
of the table accepts a word when that is its command's word (R110), and the illegal words are the rest (R111). -/

namespace Sys2Proof

/-! ## The fields of a word, and of a command -/

/-- Words that agree on a range of bits agree on each bit of it. -/
theorem getLsbD_eq_of_extractLsb'_eq {v w : Word} {start len i : Nat} (h : v.extractLsb' start len = w.extractLsb' start len)
    (hlo : start ≤ i) (hhi : i < start + len) : v.getLsbD i = w.getLsbD i := by
  have hbit := congrArg (·.getLsbD (i - start)) h
  simpa [BitVec.getLsbD_extractLsb', show i - start < len by omega, show start + (i - start) = i by omega] using hbit

/-- The four fields and the two reserved ranges are the whole word (30_encoding R95 to R99). -/
theorem word_ext_fields {v w : Word} (hop : opField v = opField w) (hsrc : srcField v = srcField w)
    (hlow : v.extractLsb' 6 2 = w.extractLsb' 6 2) (hwake : wakeFirstField v = wakeFirstField w)
    (hidle : idleField v = idleField w) (hhigh : v.extractLsb' 10 22 = w.extractLsb' 10 22) : v = w := by
  apply BitVec.eq_of_getLsbD_eq
  intro i hi
  rcases (by omega : i < 4 ∨ (4 ≤ i ∧ i < 6) ∨ (6 ≤ i ∧ i < 8) ∨ i = 8 ∨ i = 9 ∨ 10 ≤ i)
    with h | ⟨h4, h6⟩ | ⟨h6, h8⟩ | rfl | rfl | h10
  · exact getLsbD_eq_of_extractLsb'_eq hop (by omega) (by omega)
  · exact getLsbD_eq_of_extractLsb'_eq hsrc h4 h6
  · exact getLsbD_eq_of_extractLsb'_eq hlow h6 h8
  · exact hwake
  · exact hidle
  · exact getLsbD_eq_of_extractLsb'_eq hhigh h10 hi

/-- OP of a command's word (30_encoding R96). -/
def Instr.op : Instr → BitVec 4
  | .crcDbuf | .crcTxbuf | .crcRxbuf => 1#4
  | .marshal => 2#4
  | .unmarshal => 3#4
  | .busWrite => 4#4
  | .busRead => 5#4
  | .resync => 6#4
  | .execute _ => 7#4
  | .wake => 8#4
  | .sleep _ => 9#4

/-- SRC of a command's word (30_encoding R97). -/
def Instr.src : Instr → BitVec 2
  | .crcTxbuf => 1#2
  | .crcRxbuf => 2#2
  | _ => 0#2

/-- WAKE_FIRST of a command's word (30_encoding R98). -/
def Instr.wakeFirst : Instr → Bool
  | .execute wakeFirst => wakeFirst
  | _ => false

/-- IDLE of a command's word (30_encoding R99). -/
def Instr.idle : Instr → Bool
  | .sleep idle => idle
  | _ => false

/-- What holds of the commands without a flag and of both values of each flag holds of every command. -/
theorem Instr.forall_of_rows {P : Instr → Prop}
    (plain : ∀ i ∈ [Instr.crcDbuf, .crcTxbuf, .crcRxbuf, .marshal, .unmarshal, .busWrite, .busRead, .resync, .wake], P i)
    (execute : ∀ b, P (.execute b)) (sleep : ∀ b, P (.sleep b)) (i : Instr) : P i := by
  cases i with
  | execute b => exact execute b
  | sleep b => exact sleep b
  | _ => exact plain _ (by simp)

/-- The fields of a command's word are the command's, and its reserved bits are 0 (30_encoding R95 to R99). -/
theorem encode_fields (i : Instr) :
    opField (encode i) = i.op ∧ srcField (encode i) = i.src ∧ (encode i).extractLsb' 6 2 = 0#2 ∧
      wakeFirstField (encode i) = i.wakeFirst ∧ idleField (encode i) = i.idle ∧ (encode i).extractLsb' 10 22 = 0#22 := by
  revert i
  exact Instr.forall_of_rows (by decide) (by decide) (by decide)

/-- A word is a command's when it has the command's fields and no reserved bit (30_encoding R95 to R99). -/
theorem encode_eq_of_fields {w : Word} {i : Instr} (hop : opField w = i.op) (hsrc : srcField w = i.src)
    (hlow : w.extractLsb' 6 2 = 0#2) (hwake : wakeFirstField w = i.wakeFirst) (hidle : idleField w = i.idle)
    (hhigh : w.extractLsb' 10 22 = 0#22) : encode i = w := by
  obtain ⟨eop, esrc, elow, ewake, eidle, ehigh⟩ := encode_fields i
  exact word_ext_fields (eop.trans hop.symm) (esrc.trans hsrc.symm) (elow.trans hlow.symm) (ewake.trans hwake.symm)
    (eidle.trans hidle.symm) (ehigh.trans hhigh.symm)

/-! ## The rows of the table (30_encoding R110) -/

/-- Putting back the one bit that a mask clears gives the word again. -/
theorem flag_restores_masked {w v : Word} {k : Nat} (h : w &&& ~~~(1#32 <<< k) = v) :
    v ||| (BitVec.ofBool (w.getLsbD k)).zeroExtend 32 <<< k = w := by
  subst h
  apply BitVec.eq_of_getLsbD_eq
  intro j hj
  rcases Nat.lt_trichotomy j k with hlt | rfl | hgt
  · simp [hj, hlt]
  · simp [hj]
  · simp [hj, show ¬ j < k by omega, show j - k ≠ 0 by omega]

/-- A row without a free field accepts its value only. -/
theorem eq_of_accepts_fullMask {v w : Word} (h : Row.accepts ⟨v, 0xFFFFFFFF#32⟩ w = true) : v = w := by
  have hmask : w &&& BitVec.allOnes 32 = v := beq_iff_eq.mp h
  rw [← hmask, BitVec.and_allOnes]

/-- A row accepts no word but its command's. -/
theorem encode_eq_of_accepts {w : Word} : ∀ r ∈ rows w, r.1.accepts w = true → encode r.2 = w := by
  have full {v : Word} (h : Row.accepts ⟨v, 0xFFFFFFFF#32⟩ w = true) := eq_of_accepts_fullMask h
  have wakeFirst (h : Row.accepts ⟨0x00000007#32, 0xFFFFFEFF#32⟩ w = true) := flag_restores_masked (k := 8) (beq_iff_eq.mp h)
  have idle (h : Row.accepts ⟨0x00000009#32, 0xFFFFFDFF#32⟩ w = true) := flag_restores_masked (k := 9) (beq_iff_eq.mp h)
  simp only [rows, List.forall_mem_cons]
  exact ⟨full, full, full, full, full, full, full, full, wakeFirst, full, idle, by simp⟩

/-- The commands of the rows that a word matches, in the order of the table. -/
def matchedCommands (w : Word) : List Instr := ((rows w).filter fun r => r.1.accepts w).map Prod.snd

/-- Every command's word matches the command's row. -/
theorem mem_matchedCommands_encode (i : Instr) : i ∈ matchedCommands (encode i) := by
  revert i
  exact Instr.forall_of_rows (by decide) (by decide) (by decide)

theorem mem_matchedCommands_iff {w : Word} {i : Instr} : i ∈ matchedCommands w ↔ encode i = w := by
  constructor
  · intro h
    obtain ⟨r, hr, rfl⟩ := List.mem_map.mp h
    obtain ⟨hrow, hw⟩ := List.mem_filter.mp hr
    exact encode_eq_of_accepts r hrow hw
  · rintro rfl
    exact mem_matchedCommands_encode i

/-- The rows have different commands. -/
theorem rows_commands_nodup (w : Word) : ((rows w).map Prod.snd).Nodup := by simp [rows]

theorem matchedCommands_nodup (w : Word) : (matchedCommands w).Nodup :=
  (rows_commands_nodup w).sublist (List.filter_sublist.map Prod.snd)

/-- The decoder takes the first row that the word matches. -/
theorem decode_eq (w : Word) :
    decode w = match (matchedCommands w).head? with
      | some i => .ok i
      | none => .error (illegalReason w) := by
  rw [matchedCommands, List.head?_map, List.head?_filter, decode]
  cases (rows w).find? fun r => r.1.accepts w <;> rfl

/-! ## Decode and encode (30_encoding R110) -/

theorem encode_eq_of_decode {w : Word} {i : Instr} (h : decode w = .ok i) : encode i = w := by
  rw [decode_eq] at h
  cases hm : (matchedCommands w).head? with
  | none => simp [hm] at h
  | some j =>
    obtain rfl : j = i := by simpa [hm] using h
    exact mem_matchedCommands_iff.mp (List.mem_of_head? hm)

theorem decode_encode (i : Instr) : decode (encode i) = .ok i := by
  revert i
  exact Instr.forall_of_rows (by decide) (by decide) (by decide)

theorem decode_eq_ok_iff {w : Word} {i : Instr} : decode w = .ok i ↔ encode i = w :=
  ⟨encode_eq_of_decode, by rintro rfl; exact decode_encode i⟩

theorem encode_injective : Function.Injective encode := fun i _ h =>
  Except.ok.inj ((decode_encode i).symm.trans (decode_eq_ok_iff.mpr h.symm))

/-- The number of a command's word, as the host writes it, is read as the command. -/
theorem decodeTableWord_encode (i : Instr) : decodeTableWord 32 (encode i).toNat = some i := by
  rw [decodeTableWord, Nat.mod_eq_of_lt (encode i).isLt, BitVec.ofNat_toNat, BitVec.setWidth_eq, decode_encode]
  rfl

/-- Settles O6, by `decode_encode` and `encode_eq_of_decode`. -/
theorem decodeAndEncodeAgree : Obligations.DecodeAndEncodeAgree := ⟨decode_encode, fun _ _ => encode_eq_of_decode⟩

/-! ## No two rows (30_encoding R110) -/

/-- A word that matches a command's row matches no other: all its matches are commands with this word. -/
theorem matchedCommands_eq_singleton {w : Word} {i : Instr} (h : i ∈ matchedCommands w) : matchedCommands w = [i] := by
  have hall : matchedCommands w = List.replicate (matchedCommands w).length i := List.eq_replicate_of_mem fun _ hj =>
    encode_injective ((mem_matchedCommands_iff.mp hj).trans (mem_matchedCommands_iff.mp h).symm)
  have hle : (matchedCommands w).length ≤ 1 := by
    rw [← List.nodup_replicate (a := i), ← hall]
    exact matchedCommands_nodup w
  have hlen : (matchedCommands w).length = 1 := Nat.le_antisymm hle (List.length_pos_of_mem h)
  rw [hall, hlen, List.replicate_one]

theorem matchedCommands_eq_singleton_iff {w : Word} {i : Instr} : matchedCommands w = [i] ↔ encode i = w :=
  ⟨fun h => mem_matchedCommands_iff.mp (by simp [h]), fun h => matchedCommands_eq_singleton (mem_matchedCommands_iff.mpr h)⟩

theorem matchedCommands_length_le (w : Word) : (matchedCommands w).length ≤ 1 := by
  cases h : matchedCommands w with
  | nil => simp
  | cons i rest =>
    have hone : matchedCommands w = [i] := matchedCommands_eq_singleton (by simp [h])
    rw [← h, hone, List.length_singleton]

/-- Settles O7: the rows a word matches are those of the commands with this word, and there is at most one such command. -/
theorem legalWordsMatchExactlyOneRow : Obligations.LegalWordsMatchExactlyOneRow := fun w =>
  ⟨by simpa [matchedCommands] using matchedCommands_length_le w,
    fun _ => decode_eq_ok_iff.trans matchedCommands_eq_singleton_iff.symm⟩

/-! ## The illegal words (30_encoding R111) -/

theorem exists_decode_error_iff {w : Word} : (∃ e, decode w = .error e) ↔ ∀ i, encode i ≠ w := by
  simp only [ne_eq, ← decode_eq_ok_iff]
  cases decode w <;> simp

/-- OP and SRC of the legal words: one of the nine operations, and SRC below 3 for CRC and 0 for the others. -/
theorem op_src_cases {op : BitVec 4} {src : BitVec 2} (hop : ¬(op = 0#4 ∨ 9#4 < op)) (hsrc : ¬(op = 1#4 ∧ src = 3#2))
    (hstray : ¬(op ≠ 1#4 ∧ src ≠ 0#2)) :
    op = 1#4 ∧ (src = 0#2 ∨ src = 1#2 ∨ src = 2#2) ∨
      (op = 2#4 ∨ op = 3#4 ∨ op = 4#4 ∨ op = 5#4 ∨ op = 6#4 ∨ op = 7#4 ∨ op = 8#4 ∨ op = 9#4) ∧ src = 0#2 := by
  revert op src
  decide

/-- A flag that may be set at one OP only is clear at every other. -/
theorem flag_eq_false_of_op_ne {flag : Bool} {op op' : BitVec 4} (h : ¬(flag = true ∧ op ≠ op')) (hne : op ≠ op') :
    flag = false := by
  cases flag with
  | false => rfl
  | true => exact absurd ⟨rfl, hne⟩ h

/-- A word that no clause of 30_encoding R111 names is a command's. -/
theorem exists_encode_of_fields {w : Word} (hop : ¬(opField w = 0#4 ∨ 9#4 < opField w))
    (hsrc : ¬(opField w = 1#4 ∧ srcField w = 3#2)) (hstray : ¬(opField w ≠ 1#4 ∧ srcField w ≠ 0#2))
    (hwake : ¬(wakeFirstField w = true ∧ opField w ≠ 7#4)) (hidle : ¬(idleField w = true ∧ opField w ≠ 9#4))
    (hlow : w.extractLsb' 6 2 = 0#2) (hhigh : w.extractLsb' 10 22 = 0#22) : ∃ i, encode i = w := by
  have of_op_src (i : Instr) (h : opField w = i.op) (h' : srcField w = i.src)
      (hw : wakeFirstField w = i.wakeFirst) (hi : idleField w = i.idle) : ∃ i, encode i = w :=
    ⟨i, encode_eq_of_fields h h' hlow hw hi hhigh⟩
  have hw (h : opField w ≠ 7#4) := flag_eq_false_of_op_ne hwake h
  have hi (h : opField w ≠ 9#4) := flag_eq_false_of_op_ne hidle h
  rcases op_src_cases hop hsrc hstray with ⟨h, h' | h' | h'⟩ | ⟨h | h | h | h | h | h | h | h, h'⟩
  · exact of_op_src .crcDbuf h h' (hw (by simp [h])) (hi (by simp [h]))
  · exact of_op_src .crcTxbuf h h' (hw (by simp [h])) (hi (by simp [h]))
  · exact of_op_src .crcRxbuf h h' (hw (by simp [h])) (hi (by simp [h]))
  · exact of_op_src .marshal h h' (hw (by simp [h])) (hi (by simp [h]))
  · exact of_op_src .unmarshal h h' (hw (by simp [h])) (hi (by simp [h]))
  · exact of_op_src .busWrite h h' (hw (by simp [h])) (hi (by simp [h]))
  · exact of_op_src .busRead h h' (hw (by simp [h])) (hi (by simp [h]))
  · exact of_op_src .resync h h' (hw (by simp [h])) (hi (by simp [h]))
  · exact of_op_src (.execute (wakeFirstField w)) h h' rfl (hi (by simp [h]))
  · exact of_op_src .wake h h' (hw (by simp [h])) (hi (by simp [h]))
  · exact of_op_src (.sleep (idleField w)) h h' (hw (by simp [h])) rfl

/-- The list of 30_encoding R111, clause by clause. -/
def ListedIllegal (w : Word) : Prop :=
  (opField w = 0#4 ∨ 9#4 < opField w) ∨ (opField w = 1#4 ∧ srcField w = 3#2) ∨ (opField w ≠ 1#4 ∧ srcField w ≠ 0#2) ∨
    (wakeFirstField w = true ∧ opField w ≠ 7#4) ∨ (idleField w = true ∧ opField w ≠ 9#4) ∨
    w.extractLsb' 6 2 ≠ 0#2 ∨ w.extractLsb' 10 22 ≠ 0#22

/-- No command's word is on the list. -/
theorem not_listedIllegal_encode (i : Instr) : ¬ ListedIllegal (encode i) := by
  unfold ListedIllegal
  revert i
  exact Instr.forall_of_rows (by decide) (by decide) (by decide)

theorem exists_encode_of_not_listedIllegal {w : Word} (h : ¬ ListedIllegal w) : ∃ i, encode i = w := by
  simp only [ListedIllegal, not_or] at h
  obtain ⟨hop, hsrc, hstray, hwake, hidle, hlow, hhigh⟩ := h
  exact exists_encode_of_fields (not_or.mpr hop) hsrc hstray hwake hidle (not_not.mp hlow) (not_not.mp hhigh)

/-- Settles O8: a word off the list is built from its fields, and no command's word is on it. -/
theorem illegalWordsAreExactlyTheListed : Obligations.IllegalWordsAreExactlyTheListed := by
  intro w
  rw [exists_decode_error_iff]
  change _ ↔ ListedIllegal w
  constructor
  · intro hnone
    by_contra hw
    obtain ⟨i, hi⟩ := exists_encode_of_not_listedIllegal hw
    exact hnone i hi
  · rintro hw i rfl
    exact not_listedIllegal_encode i hw

/-! ## Fixed words (30_encoding R110, R111, R114) -/

/-- Settles O5: six words are their commands' own; two are illegal, WAKE with WAKE_FIRST set and CRC with SRC = 3. -/
theorem sampleWordsDecode : Obligations.SampleWordsDecode :=
  ⟨decodeTableWord_encode .crcRxbuf, decodeTableWord_encode .marshal, decodeTableWord_encode .busRead,
    decodeTableWord_encode (.execute true), decodeTableWord_encode (.sleep true), decodeTableWord_encode .wake, rfl, rfl⟩

end Sys2Proof
end

section
/-! What the sequencer does with an illegal word, and the one frame that no parameter register enters. -/

namespace Sys2Proof.Machine

/-! ## An illegal word (30_encoding R111, 60_exceptions R241) -/

/-- On the controller's turn an accepted illegal word is the completion step with BAD_COMMAND. -/
theorem step_illegal {s : State} {reply : Option BusReply} {rest : List Turn} {q : Seq} {e : IllegalWord}
    (hturns : s.turns = .ctrl reply :: rest) (hq : s.seq = some q) (hpos : q.pos = .accepted) (he : decode q.word = .error e) :
    step s = .next (State.complete .badCommand { s with turns := rest }) := by
  have hctrl : State.ctrlStep reply { s with turns := rest } = State.complete .badCommand { s with turns := rest } := by
    simpa only [he] using State.ctrlStep_accepted (s := { s with turns := rest }) hq hpos reply
  have hstep : step s = .next (State.ctrlStep reply { s with turns := rest }) := by
    simp only [step, State.nextMove, hturns, hq, he]
  rw [hstep, hctrl]

/-- Settles O3, by `step_illegal`. -/
theorem illegalWordOnlyCompletesWithBadCommand : Obligations.IllegalWordOnlyCompletesWithBadCommand :=
  fun _ _ _ _ _ hturns hq hpos he => step_illegal hturns hq hpos he

/-! ## The sleep and idle frames (30_encoding R116, 44_wake_sleep R229) -/

/-- SLEEP's frame is nine bytes, of which only OpCode, Mode and the CRC are not fixed. -/
theorem oneWayFrame_eq (p : Params) (m : Byte) :
    oneWayFrame p m = withCrc [0x09#8, p.sleepOpcode, m, 0x00#8, 0x00#8, 0x00#8, 0x00#8] := by
  simp [oneWayFrame, marshalFrame, segmentSum, be16]

/-- Settles O15: the two frames differ in Mode only, and the CRC of each is run bit by bit. -/
theorem sleepAndIdleFramesAreTheKnownVectors : Obligations.SleepAndIdleFramesAreTheKnownVectors := by
  have hsleep : crc16 [0x09#8, 0x11#8, 0x00#8, 0x00#8, 0x00#8, 0x00#8, 0x00#8] = [0x71#8, 0x81#8] := by
    simp [crc16, crcRegister, crcByte, crcBit, BitVec.msb, be16]
  have hidle : crc16 [0x09#8, 0x11#8, 0x40#8, 0x00#8, 0x00#8, 0x00#8, 0x00#8] = [0xEF#8, 0x82#8] := by
    simp [crc16, crcRegister, crcByte, crcBit, BitVec.msb, be16]
  constructor
  · simp [sleepFrame, sleepModeByte, oneWayFrame_eq, withCrc, defaultParams, hsleep]
  · simp [sleepFrame, sleepModeByte, oneWayFrame_eq, withCrc, defaultParams, hidle]

end Sys2Proof.Machine
end

section
/-! The CRC: the laws of the engine (40_crc R131), and the run of the CRC command line by line (R130). -/

namespace Sys2Proof.Machine

/-! ## Linearity (40_crc R131) -/

/-- What one input bit XORs into the shifted register, x being the input bit plus the bit shifted out (40_crc R125). -/
def crcFeedback (x : Bool) : Half := if x then 0x8005#16 else 0#16

theorem crcBit_eq (c : Half) (d : Bool) : crcBit c d = c <<< 1 ^^^ crcFeedback (d ^^ c.msb) := by
  unfold crcBit crcFeedback
  split <;> simp

theorem crcFeedback_xor : ∀ x y : Bool, crcFeedback (x ^^ y) = crcFeedback x ^^^ crcFeedback y := by decide

theorem crcBit_xor (c c' : Half) (d d' : Bool) : crcBit (c ^^^ c') (d ^^ d') = crcBit c d ^^^ crcBit c' d' := by
  simp only [crcBit_eq, crcFeedback_xor, BitVec.msb_xor, BitVec.shiftLeft_xor_distrib]
  ac_rfl

theorem crcByte_xor (c c' : Half) (b b' : Byte) : crcByte (c ^^^ c') (b ^^^ b') = crcByte c b ^^^ crcByte c' b' := by
  simp only [crcByte, List.foldl_cons, List.foldl_nil, BitVec.getLsbD_xor, crcBit_xor]

theorem foldl_crcByte_xor : ∀ {s u : List Byte}, s.length = u.length → ∀ c c' : Half,
    (List.zipWith (· ^^^ ·) s u).foldl crcByte (c ^^^ c') = s.foldl crcByte c ^^^ u.foldl crcByte c'
  | [], [], _, _, _ => rfl
  | a :: s, b :: u, h, c, c' => by
    simpa [crcByte_xor] using foldl_crcByte_xor (Nat.succ.inj h) (crcByte c a) (crcByte c' b)

theorem crcRegister_xor {s u : List Byte} (h : s.length = u.length) :
    crcRegister (List.zipWith (· ^^^ ·) s u) = crcRegister s ^^^ crcRegister u := by
  simpa [crcRegister] using foldl_crcByte_xor h 0#16 0#16

theorem be16_xor (v w : Half) : be16 (v ^^^ w) = List.zipWith (· ^^^ ·) (be16 v) (be16 w) := by
  simp [be16, BitVec.extractLsb'_xor]

/-! ## Residue and leading zero (40_crc R131) -/

/-- An input bit that agrees with the bit shifted out feeds nothing back. -/
theorem crcBit_shiftLeft (c : Half) {k : Nat} (hk : k < 16) : crcBit (c <<< k) (c.getLsbD (15 - k)) = c <<< (k + 1) := by
  have hmsb : (c <<< k).msb = c.getLsbD (15 - k) := by
    rw [BitVec.msb_eq_getLsbD_last, BitVec.getLsbD_shiftLeft]
    simp [show ¬ 15 < k by omega]
  simp [crcBit, hmsb, BitVec.shiftLeft_add]

/-- The register's own high byte as input is shifted out, and nothing is fed back. -/
theorem crcByte_highByte (c : Half) : crcByte c (c.extractLsb' 8 8) = c <<< 8 := by
  have shifted : ∀ n ≤ 8,
      (List.range n).foldl (fun r k => crcBit r ((c.extractLsb' 8 8).getLsbD (7 - k))) c = c <<< n := by
    intro n hn
    induction n with
    | zero => simp
    | succ k ih =>
      have hbit : (c.extractLsb' 8 8).getLsbD (7 - k) = c.getLsbD (15 - k) := by
        simp [show 7 - k < 8 by omega, show 8 + (7 - k) = 15 - k by omega]
      rw [List.range_succ, List.foldl_append, ih (by omega), List.foldl_cons, List.foldl_nil, hbit,
        crcBit_shiftLeft c (by omega)]
  exact shifted 8 le_rfl

/-- A register fed its own two bytes, high byte first, ends at zero. -/
theorem foldl_crcByte_be16 (c : Half) : (be16 c).foldl crcByte c = 0#16 := by
  have hlow : c.extractLsb' 0 8 = (c <<< 8).extractLsb' 8 8 := by
    refine BitVec.eq_of_getLsbD_eq fun i hi => ?_
    simp [hi, BitVec.getLsbD_eq_getElem (show i < 16 by omega), show 8 + i < 16 by omega]
  calc (be16 c).foldl crcByte c
      = crcByte (crcByte c (c.extractLsb' 8 8)) (c.extractLsb' 0 8) := rfl
    _ = c <<< 8 <<< 8 := by rw [crcByte_highByte, hlow, crcByte_highByte]
    _ = 0#16 := by rw [← BitVec.shiftLeft_add, BitVec.shiftLeft_eq_zero (by decide)]

theorem crcRegister_append_crc16 (s : List Byte) : crcRegister (s ++ crc16 s) = 0#16 := by
  rw [crcRegister_append, crc16, foldl_crcByte_be16]

theorem crcRegister_cons_zero (s : List Byte) : crcRegister (0#8 :: s) = crcRegister s := by
  have hzero : crcByte 0#16 0#8 = 0#16 := by decide
  simp [crcRegister, hzero]

/-- Settles O9: each law is one of the register, written high byte first. -/
theorem crcResidueLinearityAndLeadingZero : Obligations.CrcResidueLinearityAndLeadingZero := by
  refine ⟨fun s => ?_, fun s u h => ?_, fun s => ?_⟩
  · rw [crc16, crcRegister_append_crc16]
    rfl
  · rw [crc16, crcRegister_xor h, be16_xor]
    rfl
  · rw [crc16, crcRegister_cons_zero]
    rfl

/-- Settles O10: the initial register value is zero. -/
theorem crcOfTheEmptyStream : Obligations.CrcOfTheEmptyStream := rfl

/-! ## Runs of lines that issue no bus action (00_scope R26) -/

/-- A run takes its moves from the list it is given, not from the schedule in the state. -/
theorem State.runTurns_turns (ts left : List Turn) (s : State) :
    State.runTurns ts { s with turns := left } = State.runTurns ts s := by cases ts <;> rfl

theorem State.atStart_iff {s : State} : s.atStart = true ↔ ∃ q, s.seq = some q ∧ q.pos = .accepted := by
  unfold State.atStart
  cases s.seq <;> simp

/-- Over any n moves of the controller, answered or not, a command in s ends in t, the moves left aside. -/
def EndsWithin (n : Nat) (s t : State) : Prop :=
  ∀ ts : List Turn, ts.all Turn.isCtrl = true → n ≤ ts.length → ∃ left, State.runTurns ts s = { t with turns := left }

/-- Completion ends the run. -/
theorem EndsWithin.complete (n : Nat) (s : State) (code : ResultCode) : EndsWithin n (s.complete code) (s.complete code) :=
  fun ts _ _ => ⟨ts, State.runTurns_idle rfl ts⟩

/-- A line that looks neither at the reply nor at the moves left, and then the run from where it leads. -/
theorem EndsWithin.line {n : Nat} {s t : State} {p : Pos} (hseq : s.seq.isSome = true) (hp : p ≠ .accepted)
    (hline : ∀ (reply : Option BusReply) (ts : List Turn),
      lineStep p reply { s.goto p with turns := ts } = { lineStep p none (s.goto p) with turns := ts })
    (h : EndsWithin n (lineStep p none (s.goto p)) t) : EndsWithin (n + 1) (s.goto p) t := by
  intro ts hts hlen
  obtain ⟨q, hq⟩ := Option.isSome_iff_exists.1 hseq
  have hgoto : (s.goto p).seq = some { q with pos := p } := by simp [hq]
  cases ts with
  | nil => simp at hlen
  | cons x rest =>
    simp only [List.all_cons, Bool.and_eq_true] at hts
    obtain ⟨hx, hrest⟩ := hts
    cases x with
    | host a => cases hx
    | reset => cases hx
    | ctrl reply =>
      have hstep : State.advance (.ctrl reply) { s.goto p with turns := rest } =
          { lineStep p none (s.goto p) with turns := rest } :=
        (State.ctrlStep_line (s := { s.goto p with turns := rest }) hgoto hp reply).trans (hline reply rest)
      rw [State.runTurns_running hgoto, hstep, State.runTurns_turns]
      exact h rest hrest (by simpa using hlen)

/-- The completion step, the command having gone to it. -/
theorem EndsWithin.goto_complete {s : State} (hseq : s.seq.isSome = true) (code : ResultCode) :
    EndsWithin 1 (s.goto (.complete code)) (s.complete code) :=
  .line hseq nofun (fun _ _ => rfl) (.complete 0 s code)

/-! ## The CRC command (40_crc R130) -/

/-- Of two positions gone to, the last one counts. -/
theorem State.goto_goto (p p' : Pos) (s : State) : (s.goto p).goto p' = s.goto p' := by
  cases h : s.seq <;> simp [State.goto, h]

/-- The CRC command that reads a buffer (30_encoding R97). -/
def Buf.crcInstr : Buf → Instr
  | .dbuf => .crcDbuf
  | .txbuf => .crcTxbuf
  | .rxbuf => .crcRxbuf

theorem firstLine_crcInstr (src : Buf) : firstLine src.crcInstr = .crc src .setPhase := by cases src <;> rfl

theorem eq_crcInstr_of_mem {i : Instr} {src : Buf}
    (h : (i, src) ∈ [(Instr.crcDbuf, Buf.dbuf), (.crcTxbuf, .txbuf), (.crcRxbuf, .rxbuf)]) : i = src.crcInstr := by
  cases src <;> simpa [Buf.crcInstr] using h

/-- No line of the CRC command issues a bus action, and none looks at the moves left. -/
theorem crcLine_internal (src : Buf) (l : CrcLine) (reply : Option BusReply) (s : State) (ts : List Turn) :
    lineStep (.crc src l) reply { s with turns := ts } = { lineStep (.crc src l) none s with turns := ts } := by
  cases l with
  | check size =>
    simp only [lineStep, crcLine]
    split <;> rfl
  | _ => rfl

theorem EndsWithin.crcLine {n : Nat} {s t : State} {src : Buf} (l : CrcLine) (hseq : s.seq.isSome = true)
    (h : EndsWithin n (crcLine src l (s.goto (.crc src l))) t) : EndsWithin (n + 1) (s.goto (.crc src l)) t :=
  .line hseq nofun (fun reply ts => crcLine_internal src l reply _ ts) h

section
variable {s : State} {src : Buf} {p : Pos}

theorem crcLine_setPhase_goto : crcLine src .setPhase (s.goto p) = (s.setPhase .crc).goto (.crc src .setSource) :=
  State.goto_goto p _ (s.setPhase .crc)

theorem crcLine_setSource_goto : crcLine src .setSource (s.goto p) = s.goto (.crc src (.check (src.size s.params))) :=
  State.goto_goto p _ s

theorem crcLine_check_above {size : Nat} (h : size < s.crcLen.toNat) :
    crcLine src (.check size) (s.goto p) = s.complete .badLength := if_pos h

theorem crcLine_check_within {size : Nat} (h : s.crcLen.toNat ≤ size) :
    crcLine src (.check size) (s.goto p) = s.goto (.crc src .compute) :=
  (if_neg h.not_gt).trans (State.goto_goto p _ s)

theorem crcLine_compute_goto : crcLine src .compute (s.goto p) =
    s.goto (.crc src (.store (crcRegister (s.bufSlice src 0 s.crcLen.toNat)))) := State.goto_goto p _ s

theorem crcLine_store_goto {c : Half} : crcLine src (.store c) (s.goto p) = State.goto (.complete .ok) { s with crc := c } :=
  State.goto_goto p _ { s with crc := c }

/-- The run up to the length check. -/
theorem crc_endsWithin_of_check {n : Nat} {t : State} (hseq : s.seq.isSome = true)
    (h : EndsWithin n ((s.setPhase .crc).goto (.crc src (.check (src.size s.params)))) t) :
    EndsWithin (n + 2) (s.goto (.crc src .setPhase)) t := by
  refine .crcLine .setPhase hseq ?_
  rw [crcLine_setPhase_goto]
  refine .crcLine .setSource hseq ?_
  rw [crcLine_setSource_goto]
  exact h

/-- CRC_LEN above the buffer's size: the length check completes with BAD_LENGTH. -/
theorem crc_endsWithin_badLength (hseq : s.seq.isSome = true) (hlen : src.size s.params < s.crcLen.toNat) :
    EndsWithin 3 (s.goto (.crc src .setPhase)) (s.complete .badLength) := by
  refine crc_endsWithin_of_check hseq (.crcLine (.check _) hseq ?_)
  rw [crcLine_check_above (s := s.setPhase .crc) hlen]
  exact .complete 0 s .badLength

/-- CRC_LEN within the buffer: all six lines run. -/
theorem crc_endsWithin_ok (hseq : s.seq.isSome = true) (hlen : s.crcLen.toNat ≤ src.size s.params) :
    EndsWithin 6 (s.goto (.crc src .setPhase))
      (State.complete .ok { s with crc := crcRegister (s.bufSlice src 0 s.crcLen.toNat) }) := by
  refine crc_endsWithin_of_check hseq (.crcLine (.check _) hseq ?_)
  rw [crcLine_check_within (s := s.setPhase .crc) hlen]
  refine .crcLine .compute hseq ?_
  rw [crcLine_compute_goto]
  refine .crcLine (.store _) hseq ?_
  rw [crcLine_store_goto]
  exact .goto_complete (s := { s.setPhase .crc with crc := crcRegister (s.bufSlice src 0 s.crcLen.toNat) }) hseq .ok

end

/-- Settles O11: the CRC command's lines, one after another. -/
theorem crcCommandsComputeThePrefixCrc : Obligations.CrcCommandsComputeThePrefixCrc := by
  intro s i src hi hstart hturns hlen
  obtain rfl := eq_crcInstr_of_mem hi
  obtain ⟨q, hq, hp⟩ := State.atStart_iff.1 hstart
  refine ⟨_, exec_eq _ s, ?_⟩
  rw [State.runCommand_atStart hq hp, firstLine_crcInstr]
  have hseq : s.seq.isSome = true := by simp [hq]
  refine ⟨fun h => ?_, fun h => ?_⟩
  · obtain ⟨left, hrun⟩ := crc_endsWithin_ok hseq h s.turns hturns (by omega)
    rw [hrun]
    rfl
  · obtain ⟨left, hrun⟩ := crc_endsWithin_badLength hseq h s.turns hturns (by omega)
    rw [hrun]
    rfl

end Sys2Proof.Machine
end

section
/-! What a command never writes: a run goes through the lines of its own command only, and none of them writes an output that the
command's rule does not list (40_crc R130, 41_framer R136, R146, 42_bus R170 to R172, 43_transaction R195, 44_wake_sleep R225,
R228). -/

namespace Sys2Proof.Machine

/-! ## The lines of one command -/

/-- The lines a run of command i goes through, the completion step among them. -/
def Pos.inRunOf (i : Instr) : Pos → Prop
  | .accepted => False
  | .complete _ => True
  | .crc src _ => i = src.crcInstr
  | .marshal _ => i = .marshal
  | .unmarshal _ => i = .unmarshal
  | .busWrite _ => i = .busWrite
  | .busRead _ => i = .busRead
  | .resync _ => i = .resync
  | .execute wakeFirst _ => i = .execute wakeFirst
  | .wake _ => i = .wake
  | .sleep idle _ => i = .sleep idle

theorem firstLine_inRunOf (i : Instr) : (firstLine i).inRunOf i := by cases i <;> rfl

theorem Pos.inRunOf.ne_accepted {i : Instr} {p : Pos} (h : p.inRunOf i) : p ≠ .accepted := by
  rintro rfl
  exact h

/-- A line of a command writes no buffer that its first line may not (`Pos.outputBufs` is the command's). -/
theorem Pos.inRunOf.outputBufs_subset {i : Instr} {p : Pos} (h : p.inRunOf i) : p.outputBufs ⊆ (firstLine i).outputBufs := by
  cases p with
  | accepted => exact absurd rfl h.ne_accepted
  | complete code => exact List.nil_subset _
  | crc src l =>
    obtain rfl := h
    rw [firstLine_crcInstr]
    exact List.Subset.refl _
  | _ =>
    obtain rfl := h
    exact List.Subset.refl _

/-- The command running in s, if one is, is i. -/
def State.Runs (s : State) (i : Instr) : Prop := ∀ q, s.seq = some q → q.pos.inRunOf i

theorem State.Runs.goto {i : Instr} {p : Pos} (hp : p.inRunOf i) (s : State) : (s.goto p).Runs i := by
  intro q hq
  obtain ⟨q', _, rfl⟩ := Option.map_eq_some_iff.1 (s.goto_seq p ▸ hq)
  exact hp

theorem State.Runs.complete (i : Instr) (code : ResultCode) (s : State) : (s.complete code).Runs i := by simp [State.Runs]

/-! ## The outputs a command does not write -/

/-- FRAME_LEN, RX_LEN, CRC, RSP, TSTATE, ATTEMPTS and the bus trace, those that a command may write replaced by a fixed value. -/
def State.unwritten (s : State) : Instr → Byte × Byte × Half × Rsp × TState × BitVec 4 × List Event
  | .crcDbuf | .crcTxbuf | .crcRxbuf => (s.frameLen, s.rxLen, 0#16, s.rsp, s.tstate, s.attempts, s.trace)
  | .marshal => (0#8, s.rxLen, s.crc, s.rsp, s.tstate, s.attempts, s.trace)
  | .unmarshal => (s.frameLen, s.rxLen, s.crc, noFrame, s.tstate, s.attempts, s.trace)
  | .busWrite | .resync => (s.frameLen, s.rxLen, s.crc, s.rsp, .idle, s.attempts, [])
  | .busRead => (s.frameLen, 0#8, s.crc, s.rsp, .idle, s.attempts, [])
  | .execute _ => (0#8, 0#8, s.crc, noFrame, .idle, 0#4, [])
  | .wake => (s.frameLen, s.rxLen, s.crc, s.rsp, s.tstate, s.attempts, [])
  | .sleep _ => (0#8, s.rxLen, s.crc, s.rsp, .idle, 0#4, [])

theorem untouched_iff {s t : State} {i : Instr} :
    Untouched s t i ↔ OnlyTouches (firstLine i).outputBufs s t ∧ t.unwritten i = s.unwritten i := by
  cases i <;> simp [Untouched, State.unwritten, firstLine, Pos.outputBufs]

/-- What changes none of the outputs changes none that a command does not write. -/
theorem State.unwritten_eq_of_outputs_eq {s t : State} (i : Instr)
    (h : (t.frameLen, t.rxLen, t.crc, t.rsp, t.tstate, t.attempts, t.trace) =
      (s.frameLen, s.rxLen, s.crc, s.rsp, s.tstate, s.attempts, s.trace)) : t.unwritten i = s.unwritten i := by
  simp only [Prod.mk.injEq] at h
  obtain ⟨hframe, hrx, hcrc, hrsp, hts, hat, htr⟩ := h
  cases i <;> simp only [State.unwritten, hframe, hrx, hcrc, hrsp, hts, hat, htr]

/-- From s to t a step of command i stays in the command and writes none of the outputs its rule does not list. -/
structure StaysIn (i : Instr) (s t : State) : Prop where
  runs : t.Runs i
  unwritten : t.unwritten i = s.unwritten i

theorem StaysIn.goto {i : Instr} {s t : State} {p : Pos} (ht : t.unwritten i = s.unwritten i) (hp : p.inRunOf i) :
    StaysIn i s (t.goto p) :=
  ⟨.goto hp t, (State.unwritten_eq_of_outputs_eq i rfl).trans ht⟩

theorem StaysIn.complete {i : Instr} {s t : State} (ht : t.unwritten i = s.unwritten i) (code : ResultCode) :
    StaysIn i s (t.complete code) :=
  ⟨.complete i code t, (State.unwritten_eq_of_outputs_eq i rfl).trans ht⟩

/-- A store changes none of these outputs. -/
theorem State.setBufBytes_unwritten (s : State) (b : Buf) (a : Nat) (v : List Byte) (i : Instr) :
    (s.setBufBytes b a v).unwritten i = s.unwritten i := State.unwritten_eq_of_outputs_eq i (by simp)

theorem StaysIn.completeOrGoto {i : Instr} {s : State} {p : Pos} (hp : p.inRunOf i) (c : Prop) [Decidable c]
    (code : ResultCode) : StaysIn i s (if c then s.complete code else s.goto p) := by
  split
  · exact .complete rfl code
  · exact .goto rfl hp

theorem StaysIn.gotoOrComplete {i : Instr} {s : State} {p : Pos} (hp : p.inRunOf i) (c : Prop) [Decidable c]
    (code : ResultCode) : StaysIn i s (if c then s.goto p else s.complete code) := by
  split
  · exact .goto rfl hp
  · exact .complete rfl code

/-- A line that calls a primitive stays in the command when the lines inside do and its own part does. -/
theorem StaysIn.callLine {Q A : Type} {i : Instr} {s : State} {x : State × Flow Q A} {inside : Q → Pos}
    {k : A → State → State} (hx : x.1.unwritten i = s.unwritten i) (hin : ∀ q, (inside q).inRunOf i)
    (hk : ∀ a t, t.unwritten i = s.unwritten i → StaysIn i s (k a t)) : StaysIn i s (callLine x inside k) := by
  obtain ⟨t, q | a⟩ := x
  · exact .goto hx (hin q)
  · exact hk a t hx

/-- What follows a resync: the completion step is next, or completion with the failure's code. -/
theorem StaysIn.afterResync {i : Instr} {s t : State} (ht : t.unwritten i = s.unwritten i) (ok : Bool) (code : ResultCode) :
    StaysIn i s (if ok then t.goto (.complete code) else t.complete .resyncFail) := by
  cases ok with
  | true => exact .goto ht trivial
  | false => exact .complete ht .resyncFail

/-- A bus primitive changes no output of a command that may write TSTATE and the trace. -/
theorem BusFrame.unwritten {s t : State} {i : Instr} (h : BusFrame s t)
    (hi : ∀ (u : State) (pd : Option Action) (tr : List Event) (ts : TState),
      State.unwritten { u with pending := pd, trace := tr, tstate := ts } i = u.unwritten i) :
    t.unwritten i = s.unwritten i := by
  obtain ⟨pd, tr, ts, rfl⟩ := h
  exact hi s pd _ ts

/-! ## The lines of each command -/

theorem crcLine_staysIn (src : Buf) (l : CrcLine) (s : State) : StaysIn src.crcInstr s (crcLine src l s) := by
  cases l with
  | setPhase => exact .goto (State.unwritten_eq_of_outputs_eq _ rfl) rfl
  | setSource | compute => exact .goto rfl rfl
  | check size => exact .completeOrGoto (by rfl) _ _
  | store c => exact .goto (by cases src <;> rfl) trivial

theorem marshalLine_staysIn (l : MarshalLine) (s : State) : StaysIn .marshal s (marshalLine l s) := by
  cases l with
  | setPhase | build | getLen f => exact .goto rfl rfl
  | check r => cases r with
    | none => exact .complete rfl _
    | some f => exact .goto rfl rfl
  | store f n => exact .goto (s.setBufBytes_unwritten .txbuf 0 f _) rfl
  | setLen n => exact .goto rfl trivial

theorem unmarshalLine_staysIn (l : UnmarshalLine) (s : State) : StaysIn .unmarshal s (unmarshalLine l s) := by
  cases l with
  | setPhase | clearRsp | getLen | run n => exact .goto rfl rfl
  | check n => exact .completeOrGoto (by rfl) _ _
  | checkFrame n v => cases v with
    | valid status => exact .goto rfl rfl
    | frameShort | crcError | frameCountError => exact .complete rfl _
  | apply n status => exact .goto rfl trivial

theorem busWriteLine_staysIn (l : BusWriteLine) (reply : Option BusReply) (s : State) :
    StaysIn .busWrite s (busWriteLine l reply s) := by
  cases l with
  | setCheck | setPhase => exact .goto rfl rfl
  | seqCheck | lenCheck => exact .completeOrGoto (by rfl) _ _
  | transfer p =>
    exact .callLine ((busWriteStep_frame ..).unwritten fun _ _ _ _ => rfl) (fun _ => rfl) fun _ _ ht => .goto ht rfl
  | result ok => cases ok with
    | true => exact .goto rfl trivial
    | false => exact .complete rfl _

theorem busReadLine_staysIn (l : BusReadLine) (reply : Option BusReply) (s : State) :
    StaysIn .busRead s (busReadLine l reply s) := by
  cases l with
  | setCheck | setPhase | getLen | bind n v => exact .goto rfl rfl
  | seqCheck | lenCheck => exact .completeOrGoto (by rfl) _ _
  | transfer n p =>
    exact .callLine ((busReadStep_frame ..).unwritten fun _ _ _ _ => rfl) (fun _ => rfl) fun _ _ ht => .goto ht rfl
  | result n v => cases v <;> exact .goto rfl rfl
  | store n v => exact .goto (s.setBufBytes_unwritten .rxbuf 0 v _) rfl
  | clearLen | setLen n => exact .goto rfl trivial

theorem resyncLine_staysIn (l : ResyncLine) (reply : Option BusReply) (s : State) :
    StaysIn .resync s (resyncLine l reply s) := by
  cases l with
  | setPhase => exact .goto rfl rfl
  | run p =>
    exact .callLine ((resyncStep_frame ..).unwritten fun _ _ _ _ => rfl) (fun _ => rfl) fun ok _ ht => .afterResync ht ok .ok

/-- While the wake pulse is unanswered, the command stays at its line. -/
theorem StaysIn.await {i : Instr} {s : State} (hs : s.Runs i) (a : Action) : StaysIn i s (s.await a) :=
  ⟨hs, State.unwritten_eq_of_outputs_eq i rfl⟩

theorem wakeLine_staysIn (l : WakeLine) (reply : Option BusReply) {s : State} (hs : s.Runs .wake) :
    StaysIn .wake s (wakeLine l reply s) := by
  cases l with
  | setPhase => exact .goto rfl rfl
  | pulse => cases reply with
    | none => exact .await hs _
    | some r => exact .goto rfl trivial

/-- The command write changes no output of a command that may write TSTATE, ATTEMPTS and the trace. -/
theorem retryStep_unwritten {i : Instr} (f : List Byte) (p : RetryPos) (reply : Option BusReply) (s : State)
    (hi : ∀ (u : State) (pd : Option Action) (tr : List Event) (ts : TState) (ph : Phase) (n : BitVec 4),
      State.unwritten { u with pending := pd, trace := tr, tstate := ts, phase := ph, attempts := n } i = u.unwritten i) :
    (retryStep f p reply s).1.unwritten i = s.unwritten i := by
  obtain ⟨pd, tr, ts, ph, n, h⟩ := retryStep_frame f p reply s
  rw [h]
  exact hi s pd _ ts ph n

theorem sleepLine_staysIn (idle : Bool) (l : SleepLine) (reply : Option BusReply) (s : State) :
    StaysIn (.sleep idle) s (sleepLine idle l reply s) := by
  cases l with
  | setCheck | setMarshal | setMode | build m => exact .goto rfl rfl
  | seqCheck => exact .completeOrGoto (by rfl) _ _
  | store f => exact .goto (s.setBufBytes_unwritten .txbuf 0 f (.sleep idle)) rfl
  | write p =>
    exact .callLine (retryStep_unwritten _ p reply s fun _ _ _ _ _ _ => rfl) (fun _ => rfl) fun _ _ ht => .goto ht rfl
  | result w => exact .gotoOrComplete (by trivial) _ _

theorem executeLine_staysIn (wakeFirst : Bool) (l : ExecuteLine) (reply : Option BusReply) {s : State}
    (hs : s.Runs (.execute wakeFirst)) : StaysIn (.execute wakeFirst) s (executeLine wakeFirst l reply s) := by
  cases l with
  | setCheck | clearRsp | setMarshal | build | ifWake | setWake | setWait | wait | setReadCount | bindCount v | setReadBody c
  | ifContinue c | bindBody c v | setUnmarshal c | unmarshal c | failClearLen | failSetResync => exact .goto rfl rfl
  | seqCheck | lenCheck | shortCheck c | longCheck c | restartCheck c v => exact .completeOrGoto (by rfl) _ _
  | check r => cases r with
    | none => exact .complete rfl _
    | some f => exact .goto rfl rfl
  | store f => exact .goto (s.setBufBytes_unwritten .txbuf 0 f (.execute wakeFirst)) rfl
  | pulse => cases reply with
    | none => exact .await hs _
    | some r => exact .goto rfl rfl
  | write p =>
    exact .callLine (retryStep_unwritten _ p reply s fun _ _ _ _ _ _ => rfl) (fun _ => rfl) fun _ _ ht => .goto ht rfl
  | result w => exact .gotoOrComplete (by rfl) _ _
  | readCount p | readBody c p =>
    exact .callLine ((busReadStep_frame ..).unwritten fun _ _ _ _ => rfl) (fun _ => rfl) fun _ _ ht => .goto ht rfl
  | countResult v | bodyResult c v => cases v <;> exact .goto rfl rfl
  | storeCount c => exact .goto (s.setBufBytes_unwritten .rxbuf 0 [c] (.execute wakeFirst)) rfl
  | storeBody c v =>
    simp only [executeLine]
    split <;> exact .goto (s.setBufBytes_unwritten .rxbuf _ v (.execute wakeFirst)) rfl
  | checkFrame c v => cases v with
    | valid status => exact .goto rfl rfl
    | frameShort | crcError | frameCountError => exact .complete rfl _
  | apply c status => exact .goto rfl trivial
  | failResync p =>
    exact .callLine ((resyncStep_frame ..).unwritten fun _ _ _ _ => rfl) (fun _ => rfl) fun ok _ ht =>
      .afterResync ht ok .commFail

/-- A line of a command leads to a line of the same command, and writes only what the command's rule lists. -/
theorem lineStep_staysIn {i : Instr} {p : Pos} (hp : p.inRunOf i) (reply : Option BusReply) {s : State} (hs : s.Runs i) :
    StaysIn i s (lineStep p reply s) := by
  cases p with
  | accepted => exact absurd rfl hp.ne_accepted
  | complete code => exact .complete rfl code
  | crc src l => exact hp ▸ crcLine_staysIn src l s
  | marshal l => exact hp ▸ marshalLine_staysIn l s
  | unmarshal l => exact hp ▸ unmarshalLine_staysIn l s
  | busWrite l => exact hp ▸ busWriteLine_staysIn l reply s
  | busRead l => exact hp ▸ busReadLine_staysIn l reply s
  | resync l => exact hp ▸ resyncLine_staysIn l reply s
  | execute wakeFirst l => exact hp ▸ executeLine_staysIn wakeFirst l reply (hp ▸ hs)
  | wake l => exact hp ▸ wakeLine_staysIn l reply (hp ▸ hs)
  | sleep idle l => exact hp ▸ sleepLine_staysIn idle l reply s

/-! ## Runs of one command -/

/-- The command running in s, if one is, is i, and then BUSY is set. -/
def State.RunsBusy (s : State) (i : Instr) : Prop := (s.seq.isSome = true → s.busy = true) ∧ s.Runs i

section
variable {i : Instr} {I : State → Prop}
  (line : ∀ (s : State) (q : Seq) (reply : Option BusReply), s.seq = some q → s.Runs i → I s →
    I (lineStep q.pos reply s))
  (access : ∀ (s : State) (a : Access), s.busy = true → I s → I (s.access a))
include line access

/-- What every line of a command keeps, and every host access to a busy controller, every move but the reset keeps while the
command runs. -/
theorem advance_keeps_inRun {s : State} {q : Seq} {x : Turn} (hq : s.seq = some q) (hx : x.notReset = true)
    (hrb : s.RunsBusy i) (hs : I s) : (State.advance x s).RunsBusy i ∧ I (State.advance x s) := by
  obtain ⟨hbusy, hrun⟩ := hrb
  cases x with
  | reset => cases hx
  | host a =>
    have hb : s.busy = true := hbusy (by simp [hq])
    obtain ⟨ie, rt, d, o, l, n, he⟩ := State.access_busy hb a
    have hb' : (s.access a).busy = true := by rw [he]; exact hb
    have hrun' : (s.access a).Runs i := by rw [he]; exact hrun
    exact ⟨⟨fun _ => hb', hrun'⟩, access s a hb hs⟩
  | ctrl reply =>
    have hpos : q.pos.inRunOf i := hrun q hq
    have he : State.advance (.ctrl reply) s = lineStep q.pos reply s := State.ctrlStep_line hq hpos.ne_accepted reply
    have hb' := (whileRunning_lineInvariant fun busy _ => busy = true).lineStep q.pos reply hbusy
    rw [he]
    exact ⟨⟨hb', (lineStep_staysIn hpos reply hrun).runs⟩, line s q reply hq hrun hs⟩

/-- The same for a run of the command from its acceptance, without a reset. -/
theorem exec_keeps_inRun (turns : ∀ (s : State) (ts : List Turn), I s → I { s with turns := ts })
    (goto : ∀ (s : State) (p : Pos), I s → I (s.goto p)) {s t : State} (hstart : s.atStart = true) (hbusy : s.busy = true)
    (hturns : s.turns.all Turn.notReset = true) (hs : I s) (h : exec i s = .next t) : t.RunsBusy i ∧ I t := by
  obtain ⟨q, hq, hp⟩ := State.atStart_iff.1 hstart
  have start : (s.goto (firstLine i)).RunsBusy i := ⟨fun _ => hbusy, .goto (firstLine_inRunOf i) s⟩
  rw [exec_eq, State.runCommand_atStart hq hp] at h
  cases h
  exact State.runTurns_induct (I := fun u => u.RunsBusy i ∧ I u) (fun u ts ⟨hrb, hu⟩ => ⟨hrb, turns u ts hu⟩)
    (fun _ _ _ hq hx ⟨hrb, hu⟩ => advance_keeps_inRun line access hq hx hrb hu) hturns ⟨start, goto s _ hs⟩

end

theorem OnlyTouches.mono {bufs bufs' : List Buf} (hsub : bufs ⊆ bufs') {s t : State} (h : OnlyTouches bufs s t) :
    OnlyTouches bufs' s t := fun off hoff => h off fun b hb => hoff b (hsub hb)

/-- What changes neither a buffer nor an output leaves untouched whatever a command must. -/
theorem Untouched.of_outputs_eq {s t : State} (i : Instr) (hmem : t.mem = s.mem) (hepoch : t.epoch = s.epoch)
    (h : (t.frameLen, t.rxLen, t.crc, t.rsp, t.tstate, t.attempts, t.trace) =
      (s.frameLen, s.rxLen, s.crc, s.rsp, s.tstate, s.attempts, s.trace)) : Untouched s t i :=
  untouched_iff.2 ⟨.of_mem_eq hmem hepoch _, State.unwritten_eq_of_outputs_eq i h⟩

theorem Untouched.trans {i : Instr} {s t u : State} (hparams : t.params = s.params) (h : Untouched s t i) (h' : Untouched t u i) :
    Untouched s u i := by
  obtain ⟨hbufs, houts⟩ := untouched_iff.1 h
  obtain ⟨hbufs', houts'⟩ := untouched_iff.1 h'
  exact untouched_iff.2 ⟨hbufs.trans hparams hbufs', houts'.trans houts⟩

theorem lineStep_untouched {i : Instr} {p : Pos} (hp : p.inRunOf i) (reply : Option BusReply) {s : State} (hs : s.Runs i) :
    Untouched s (lineStep p reply s) i :=
  untouched_iff.2 ⟨(lineStep_onlyTouches p reply s).mono hp.outputBufs_subset, (lineStep_staysIn hp reply hs).unwritten⟩

/-- A host access to a busy controller writes no output (20_memory R75). -/
theorem State.access_untouched {s : State} (hbusy : s.busy = true) (a : Access) (i : Instr) : Untouched s (s.access a) i := by
  obtain ⟨ie, rt, d, o, l, n, he⟩ := State.access_busy hbusy a
  rw [he]
  exact .of_outputs_eq i rfl rfl rfl

theorem State.access_params {s : State} (hbusy : s.busy = true) (a : Access) : (s.access a).params = s.params := by
  obtain ⟨ie, rt, d, o, l, n, he⟩ := State.access_busy hbusy a
  rw [he]

theorem lineStep_params (p : Pos) (reply : Option BusReply) (s : State) : (lineStep p reply s).params = s.params :=
  congrArg Prod.fst ((inputRegs_lineInvariant s).lineStep p reply rfl)

/-- Settles O45: a run goes through the command's own lines, each of which writes only what the rule lists. -/
theorem commandsWriteOnlyTheirOutputs : Obligations.CommandsWriteOnlyTheirOutputs := by
  intro s t i hbusy hturns hstart h
  have hself : Untouched s s i := .of_outputs_eq i rfl rfl rfl
  refine (exec_keeps_inRun (I := fun u => u.params = s.params ∧ Untouched s u i)
    ?line ?access ?turns ?goto hstart hbusy hturns ⟨rfl, hself⟩ h).2.2
  case line =>
    rintro u q reply hq hrun ⟨hparams, hu⟩
    exact ⟨(lineStep_params ..).trans hparams, hu.trans hparams (lineStep_untouched (hrun q hq) reply hrun)⟩
  case access =>
    rintro u a hb ⟨hparams, hu⟩
    exact ⟨(State.access_params hb a).trans hparams, hu.trans hparams (State.access_untouched hb a i)⟩
  case turns =>
    rintro u ts ⟨hparams, hu⟩
    exact ⟨hparams, hu.trans hparams (.of_outputs_eq i rfl rfl rfl)⟩
  case goto =>
    rintro u p ⟨hparams, hu⟩
    exact ⟨hparams, hu.trans hparams (.of_outputs_eq i rfl rfl rfl)⟩

end Sys2Proof.Machine
end

section
/-! The framer (41_framer): the shape of a marshalled frame and what `Unmarshal` answers, then the runs of MARSHAL and UNMARSHAL line
by line (R136, R146). -/

namespace Sys2Proof.Machine

/-! ## When `Marshal` answers, and with what (41_framer R135, R137, R138) -/

theorem marshalFrame_eq_none_iff {p : Params} {op mode : Byte} {p1 p2 : Half} {l1 l2 l3 l4 : Byte} {d : List Byte} :
    marshalFrame p op mode p1 p2 l1 l2 l3 l4 d = none ↔ p.dbufSize < segmentSum l1 l2 l3 l4 := by
  simp only [marshalFrame]
  split <;> simp_all

/-- Settles O13: the length check is the one way to fail. -/
theorem marshalFailsExactlyAboveTheMaximumPayload : Obligations.MarshalFailsExactlyAboveTheMaximumPayload :=
  fun _ _ _ _ _ _ _ _ _ _ => marshalFrame_eq_none_iff

/-- Settles O14: `Marshal` looks at the lengths through their sum, and at the data through its bytes below it. -/
theorem segmentSplitDoesNotChangeTheFrame : Obligations.SegmentSplitDoesNotChangeTheFrame := by
  intro p op mode p1 p2 l1 l2 l3 l4 m1 m2 m3 m4 d e hsum hdata
  have hlen : segmentSum l1 l2 l3 l4 = segmentSum m1 m2 m3 m4 := hsum
  have htake : d.take (segmentSum m1 m2 m3 m4) = e.take (segmentSum m1 m2 m3 m4) := hlen ▸ hdata
  simp only [marshalFrame, hlen, htake]

/-! ## A byte sequence with its CRC appended (41_framer R135) -/

/-- The last two of the first n bytes are the CRC of those before them (41_framer R145). -/
def CrcMatches (r : List Byte) (n : Nat) : Prop := crc16 (r.take (n - 2)) = [r.getD (n - 2) 0#8, r.getD (n - 1) 0#8]

theorem withCrc_append_take (b rest : List Byte) : (withCrc b ++ rest).take ((withCrc b).length - 2) = b := by
  simp [withCrc]

theorem withCrc_take (b : List Byte) : (withCrc b).take ((withCrc b).length - 2) = b := by
  simpa using withCrc_append_take b []

theorem withCrc_drop (b : List Byte) : (withCrc b).drop ((withCrc b).length - 2) = crc16 b := by
  simp [withCrc]

theorem crcMatches_withCrc_append (b rest : List Byte) : CrcMatches (withCrc b ++ rest) (withCrc b).length := by
  rw [CrcMatches, withCrc_append_take]
  simp [withCrc, crc16, be16]

/-! ## A marshalled frame (41_framer R139) -/

theorem Params.maxCmdSize_bounds {p : Params} (hp : p.legal = true) : 9 ≤ p.maxCmdSize ∧ p.maxCmdSize ≤ 128 := by
  simp only [Params.legal, Bool.and_eq_true, decide_eq_true_eq] at hp
  obtain ⟨⟨⟨⟨hmin, hmax⟩, -⟩, -⟩, -⟩ := hp
  exact ⟨hmin, hmax⟩

/-- A marshalled frame is Count, the opcode and the payload MODE, PARAM1, PARAM2 and the data, with their CRC; Count is the length, which
fits a byte since MAX_CMD_SIZE does (00_scope R8, 41_framer R135). -/
theorem marshalFrame_shape {p : Params} {op mode : Byte} {p1 p2 : Half} {l1 l2 l3 l4 : Byte} {d f : List Byte}
    (hp : p.legal = true) (hd : p.dbufSize ≤ d.length) (h : marshalFrame p op mode p1 p2 l1 l2 l3 l4 d = some f) :
    ∃ count : Byte,
      f = withCrc (count :: op :: ([mode] ++ be16 p1 ++ be16 p2 ++ d.take (segmentSum l1 l2 l3 l4))) ∧
        count.toNat = f.length ∧ 9 ≤ f.length ∧ f.length ≤ p.maxCmdSize := by
  obtain ⟨hmin, hmax⟩ := Params.maxCmdSize_bounds hp
  have hlen := marshalFrame_length h hd
  obtain ⟨hfits, hf⟩ := marshalFrame_some h
  simp only [Params.dbufSize] at hfits
  refine ⟨_, hf, ?_, by omega, by omega⟩
  rw [BitVec.toNat_ofNat, hlen]
  omega

/-- Settles O12: Count, CRC and length of the one shape a frame has. -/
theorem marshalledFramesAreSelfConsistent : Obligations.MarshalledFramesAreSelfConsistent := by
  intro p op mode p1 p2 l1 l2 l3 l4 d f hp hd h
  obtain ⟨count, rfl, hcount, hmin, hmax⟩ := marshalFrame_shape hp hd h
  exact ⟨hcount, by rw [withCrc_take, withCrc_drop], hmin, hmax⟩

/-! ## `Unmarshal`, check by check (41_framer R145, R147) -/

section
variable {r : List Byte} {n : Nat}

theorem unmarshalFrame_short (hn : n < 4) : unmarshalFrame r n = .frameShort := if_pos hn

theorem unmarshalFrame_crcError (hn : 4 ≤ n) (hcrc : ¬ CrcMatches r n) : unmarshalFrame r n = .crcError :=
  (if_neg hn.not_gt).trans (if_pos hcrc)

theorem unmarshalFrame_countError (hn : 4 ≤ n) (hcrc : CrcMatches r n) (hcount : (r.getD 0 0#8).toNat ≠ n) :
    unmarshalFrame r n = .frameCountError :=
  (if_neg hn.not_gt).trans <| (if_neg (not_not_intro hcrc)).trans (if_pos hcount)

theorem unmarshalFrame_valid (hn : 4 ≤ n) (hcrc : CrcMatches r n) (hcount : (r.getD 0 0#8).toNat = n) :
    unmarshalFrame r n = .valid (r.getD 1 0#8) :=
  (if_neg hn.not_gt).trans <| (if_neg (not_not_intro hcrc)).trans (if_neg (not_not_intro hcount))

end

/-- Settles O17: the four ways the checks can go. -/
theorem unmarshalReportsTheFirstFailingCheck : Obligations.UnmarshalReportsTheFirstFailingCheck := by
  intro r n
  change _ ∧ (_ ↔ 4 ≤ n ∧ ¬ CrcMatches r n) ∧ (_ ↔ 4 ≤ n ∧ CrcMatches r n ∧ _) ∧
    ∀ status, _ ↔ 4 ≤ n ∧ CrcMatches r n ∧ _
  rcases lt_or_ge n 4 with hn | hn
  · simp [unmarshalFrame_short hn, hn, hn.not_ge]
  by_cases hcrc : CrcMatches r n
  · by_cases hcount : (r.getD 0 0#8).toNat = n
    · simp [unmarshalFrame_valid hn hcrc hcount, -List.getD_eq_getElem?_getD, hn, hcrc, hcount]
    · simp [unmarshalFrame_countError hn hcrc hcount, -List.getD_eq_getElem?_getD, hn, hcrc, hcount]
  · simp [unmarshalFrame_crcError hn hcrc, hn, hcrc]

/-- Settles O19: the frame passes the three checks, whatever follows it. -/
theorem unmarshalOfMarshalRecoversThePayload : Obligations.UnmarshalOfMarshalRecoversThePayload := by
  intro p op mode p1 p2 l1 l2 l3 l4 d f rest hp hd h
  obtain ⟨count, rfl, hcount, hmin, -⟩ := marshalFrame_shape hp hd h
  refine ⟨unmarshalFrame_valid (by omega) (crcMatches_withCrc_append _ rest) hcount, ?_⟩
  rw [withCrc_append_take]
  rfl

/-! ## Runs of MARSHAL and UNMARSHAL: what they share -/

/-- A command at its start ends where its lines, from the first on, lead (60_exceptions R241). -/
theorem exec_of_endsWithin {s t : State} {i : Instr} {n : Nat} (hstart : s.atStart = true)
    (hturns : s.turns.all Turn.isCtrl = true) (hlen : n ≤ s.turns.length)
    (h : s.seq.isSome = true → EndsWithin n (s.goto (firstLine i)) t) :
    ∃ left, exec i s = .next { t with turns := left } := by
  obtain ⟨q, hq, hp⟩ := State.atStart_iff.1 hstart
  obtain ⟨left, hrun⟩ := h (by simp [hq]) s.turns hturns hlen
  exact ⟨left, by rw [exec_eq, State.runCommand_atStart hq hp, hrun]⟩

/-- What a byte's store makes of the memory depends on the memory and the parameters alone. -/
theorem State.setBufByte_eq (s : State) (b : Buf) (i : Nat) (x : Byte) : s.setBufByte b i x =
    { s with mem := if i < b.size s.params then Memory.write s.mem (b.offset i) x else s.mem } := by
  unfold State.setBufByte
  split <;> rfl

/-- A sequence is stored byte by byte, so what commutes with storing a byte commutes with storing a sequence. -/
theorem State.setBufBytes_comm {g : State → State} {b : Buf}
    (hg : ∀ (s : State) (i : Nat) (x : Byte), (g s).setBufByte b i x = g (s.setBufByte b i x)) (a : Nat) (v : List Byte)
    (s : State) : (g s).setBufBytes b a v = g (s.setBufBytes b a v) := by
  induction v generalizing a s with
  | nil => rfl
  | cons x rest ih => rw [State.setBufBytes, hg, ih, State.setBufBytes]

theorem State.setBufBytes_goto (b : Buf) (a : Nat) (v : List Byte) (p : Pos) (s : State) :
    (s.goto p).setBufBytes b a v = (s.setBufBytes b a v).goto p := by
  refine State.setBufBytes_comm (g := State.goto p) (fun s i x => ?_) a v s
  rw [State.setBufByte_eq, State.setBufByte_eq]
  rfl

theorem State.setBufBytes_withTurns (b : Buf) (a : Nat) (v : List Byte) (ts : List Turn) (s : State) :
    State.setBufBytes b a v { s with turns := ts } = { s.setBufBytes b a v with turns := ts } := by
  refine State.setBufBytes_comm (g := fun s => { s with turns := ts }) (fun s i x => ?_) a v s
  rw [State.setBufByte_eq, State.setBufByte_eq]

/-! ## MARSHAL (41_framer R136) -/

/-- No line of MARSHAL issues a bus action, and none looks at the moves left. -/
theorem marshalLine_internal (l : MarshalLine) (reply : Option BusReply) (s : State) (ts : List Turn) :
    lineStep (.marshal l) reply { s with turns := ts } = { lineStep (.marshal l) none s with turns := ts } := by
  cases l with
  | check r => cases r <;> rfl
  | store f n => exact congrArg (State.goto _) (s.setBufBytes_withTurns .txbuf 0 f ts)
  | _ => rfl

/-- A line of MARSHAL, and then the run from where it leads. -/
theorem EndsWithin.marshalLine {n : Nat} {s t u : State} {l : MarshalLine} (hseq : s.seq.isSome = true)
    (hline : marshalLine l (s.goto (.marshal l)) = u) (h : EndsWithin n u t) :
    EndsWithin (n + 1) (s.goto (.marshal l)) t := by
  subst hline
  exact .line hseq nofun (fun reply ts => marshalLine_internal l reply _ ts) h

section
variable {s : State} {p : Pos} {f : List Byte}

theorem marshalLine_setPhase_goto : marshalLine .setPhase (s.goto p) = (s.setPhase .marshal).goto (.marshal .build) :=
  State.goto_goto p _ (s.setPhase .marshal)

theorem marshalLine_build_goto : marshalLine .build (s.goto p) = s.goto (.marshal (.check s.commandFrame)) :=
  State.goto_goto p _ s

theorem marshalLine_check_none_goto : marshalLine (.check none) (s.goto p) = s.complete .frameTooLarge := rfl

theorem marshalLine_check_some_goto : marshalLine (.check (some f)) (s.goto p) = s.goto (.marshal (.getLen f)) :=
  State.goto_goto p _ s

theorem marshalLine_getLen_goto : marshalLine (.getLen f) (s.goto p) = s.goto (.marshal (.store f f.length)) :=
  State.goto_goto p _ s

theorem marshalLine_store_goto {n : Nat} :
    marshalLine (.store f n) (s.goto p) = (s.setBufBytes .txbuf 0 f).goto (.marshal (.setLen n)) := by
  rw [marshalLine, State.setBufBytes_goto, State.goto_goto]

theorem marshalLine_setLen_goto {n : Nat} : marshalLine (.setLen n) (s.goto p) = (s.setFrameLen n).goto (.complete .ok) :=
  State.goto_goto p _ (s.setFrameLen n)

/-- The run up to the check of what `Marshal` answered. -/
theorem marshal_endsWithin_of_check {n : Nat} {t : State} (hseq : s.seq.isSome = true)
    (h : EndsWithin n ((s.setPhase .marshal).goto (.marshal (.check s.commandFrame))) t) :
    EndsWithin (n + 2) (s.goto (firstLine .marshal)) t :=
  .marshalLine hseq marshalLine_setPhase_goto <| .marshalLine (s := s.setPhase .marshal) hseq marshalLine_build_goto h

theorem marshal_endsWithin_tooLarge (hseq : s.seq.isSome = true) (hf : s.commandFrame = none) :
    EndsWithin 3 (s.goto (firstLine .marshal)) ((s.setPhase .marshal).complete .frameTooLarge) := by
  refine marshal_endsWithin_of_check hseq ?_
  rw [hf]
  exact .marshalLine hseq marshalLine_check_none_goto (.complete 0 _ .frameTooLarge)

/-- A frame that fits: all seven lines run. -/
theorem marshal_endsWithin_ok (hseq : s.seq.isSome = true) (hf : s.commandFrame = some f) :
    EndsWithin 7 (s.goto (firstLine .marshal))
      ((((s.setPhase .marshal).setBufBytes .txbuf 0 f).setFrameLen f.length).complete .ok) := by
  refine marshal_endsWithin_of_check hseq ?_
  rw [hf]
  have hstored : ((s.setPhase .marshal).setBufBytes .txbuf 0 f).seq.isSome = true := by simpa using hseq
  refine .marshalLine hseq marshalLine_check_some_goto ?_
  refine .marshalLine hseq marshalLine_getLen_goto ?_
  refine .marshalLine hseq marshalLine_store_goto ?_
  refine .marshalLine hstored marshalLine_setLen_goto ?_
  exact .goto_complete (s := ((s.setPhase .marshal).setBufBytes .txbuf 0 f).setFrameLen f.length) hstored .ok

end

/-- The frame fits TXBUF (41_framer R139). -/
theorem State.commandFrame_fits_txbuf {s : State} {f : List Byte} (hp : s.params.legal = true) (hf : s.commandFrame = some f) :
    0 + f.length ≤ Buf.txbuf.size s.params := by
  obtain ⟨-, -, -, -, hmax⟩ := marshalFrame_shape hp (by simp) hf
  simpa [Buf.size] using hmax

/-- Settles O16: MARSHAL's lines, one after another, for either answer of `Marshal`. -/
theorem marshalStoresTheFrame : Obligations.MarshalStoresTheFrame := by
  intro s hstart hp hturns hlen
  cases hf : s.commandFrame with
  | none =>
    obtain ⟨left, hrun⟩ := exec_of_endsWithin hstart hturns (by omega) fun hseq => marshal_endsWithin_tooLarge hseq hf
    exact ⟨_, hrun, nofun, fun _ => rfl⟩
  | some f =>
    obtain ⟨left, hrun⟩ := exec_of_endsWithin hstart hturns (by omega) fun hseq => marshal_endsWithin_ok hseq hf
    refine ⟨_, hrun, ?_, nofun⟩
    rintro _ ⟨⟩
    refine ⟨State.setBufBytes_storesAt (s := s.setPhase .marshal) (State.commandFrame_fits_txbuf hp hf), ?_⟩
    obtain ⟨m, hm⟩ := State.setBufBytes_frame .txbuf 0 f (s.setPhase .marshal)
    rw [hm]
    rfl

/-! ## UNMARSHAL (41_framer R146) -/

/-- No line of UNMARSHAL issues a bus action, and none looks at the moves left. -/
theorem unmarshalLine_internal (l : UnmarshalLine) (reply : Option BusReply) (s : State) (ts : List Turn) :
    lineStep (.unmarshal l) reply { s with turns := ts } = { lineStep (.unmarshal l) none s with turns := ts } := by
  cases l with
  | check n =>
    simp only [lineStep, unmarshalLine]
    split <;> rfl
  | checkFrame n v => cases v <;> rfl
  | _ => rfl

/-- A line of UNMARSHAL, and then the run from where it leads. -/
theorem EndsWithin.unmarshalLine {n : Nat} {s t u : State} {l : UnmarshalLine} (hseq : s.seq.isSome = true)
    (hline : unmarshalLine l (s.goto (.unmarshal l)) = u) (h : EndsWithin n u t) :
    EndsWithin (n + 1) (s.goto (.unmarshal l)) t := by
  subst hline
  exact .line hseq nofun (fun reply ts => unmarshalLine_internal l reply _ ts) h

section
variable {s : State} {p : Pos} {n : Nat}

theorem unmarshalLine_setPhase_goto :
    unmarshalLine .setPhase (s.goto p) = (s.setPhase .unmarshal).goto (.unmarshal .clearRsp) :=
  State.goto_goto p _ (s.setPhase .unmarshal)

theorem unmarshalLine_clearRsp_goto : unmarshalLine .clearRsp (s.goto p) = (s.setRsp noFrame).goto (.unmarshal .getLen) :=
  State.goto_goto p _ (s.setRsp noFrame)

theorem unmarshalLine_getLen_goto : unmarshalLine .getLen (s.goto p) = s.goto (.unmarshal (.check s.rxLen.toNat)) :=
  State.goto_goto p _ s

theorem unmarshalLine_check_above (h : s.params.rxBufSize < n) :
    unmarshalLine (.check n) (s.goto p) = s.complete .badLength := if_pos h

theorem unmarshalLine_check_within (h : n ≤ s.params.rxBufSize) :
    unmarshalLine (.check n) (s.goto p) = s.goto (.unmarshal (.run n)) :=
  (if_neg h.not_gt).trans (State.goto_goto p _ s)

theorem unmarshalLine_run_goto : unmarshalLine (.run n) (s.goto p) =
    s.goto (.unmarshal (.checkFrame n (unmarshalFrame (s.bufSlice .rxbuf 0 n) n))) := State.goto_goto p _ s

theorem unmarshalLine_checkFrame_valid_goto {status : Byte} :
    unmarshalLine (.checkFrame n (.valid status)) (s.goto p) = s.goto (.unmarshal (.apply n status)) := State.goto_goto p _ s

theorem unmarshalLine_apply_goto {status : Byte} : unmarshalLine (.apply n status) (s.goto p) =
    (s.setRsp (validRsp s.params n status)).goto (.complete (deviceResult (deviceCode s.params status))) :=
  State.goto_goto p _ (s.setRsp (validRsp s.params n status))

/-- From the check of the verdict on: a frame error completes with RSP cleared, a valid frame is applied (41_framer R148). -/
theorem unmarshal_endsWithin_verdict (hseq : s.seq.isSome = true) (v : Verdict) :
    EndsWithin 3 ((s.setRsp noFrame).goto (.unmarshal (.checkFrame n v)))
      ((s.setRsp (v.rsp s.params n)).complete (v.result s.params)) := by
  cases v with
  | valid status =>
    refine .unmarshalLine hseq unmarshalLine_checkFrame_valid_goto ?_
    exact .unmarshalLine hseq unmarshalLine_apply_goto
      (.goto_complete (s := s.setRsp (validRsp s.params n status)) hseq _)
  | frameShort | crcError | frameCountError => exact .unmarshalLine hseq rfl (.complete 2 (s.setRsp noFrame) _)

/-- The run up to the check of RX_LEN. -/
theorem unmarshal_endsWithin_of_check {t : State} (hseq : s.seq.isSome = true)
    (h : EndsWithin n (((s.setPhase .unmarshal).setRsp noFrame).goto (.unmarshal (.check s.rxLen.toNat))) t) :
    EndsWithin (n + 3) (s.goto (firstLine .unmarshal)) t := by
  refine .unmarshalLine hseq unmarshalLine_setPhase_goto ?_
  refine .unmarshalLine (s := s.setPhase .unmarshal) hseq unmarshalLine_clearRsp_goto ?_
  exact .unmarshalLine (s := (s.setPhase .unmarshal).setRsp noFrame) hseq unmarshalLine_getLen_goto h

theorem unmarshal_endsWithin_badLength (hseq : s.seq.isSome = true) (hlen : s.params.rxBufSize < s.rxLen.toNat) :
    EndsWithin 4 (s.goto (firstLine .unmarshal)) (((s.setPhase .unmarshal).setRsp noFrame).complete .badLength) :=
  unmarshal_endsWithin_of_check hseq <| .unmarshalLine hseq (unmarshalLine_check_above hlen) (.complete 0 _ .badLength)

theorem unmarshal_endsWithin_ok (hseq : s.seq.isSome = true) (hlen : s.rxLen.toNat ≤ s.params.rxBufSize) {v : Verdict}
    (hv : unmarshalFrame (s.bufSlice .rxbuf 0 s.rxLen.toNat) s.rxLen.toNat = v) :
    EndsWithin 8 (s.goto (firstLine .unmarshal))
      (((s.setPhase .unmarshal).setRsp (v.rsp s.params s.rxLen.toNat)).complete (v.result s.params)) := by
  subst hv
  refine unmarshal_endsWithin_of_check hseq ?_
  refine .unmarshalLine hseq (unmarshalLine_check_within hlen) ?_
  refine .unmarshalLine hseq unmarshalLine_run_goto ?_
  exact unmarshal_endsWithin_verdict (s := s.setPhase .unmarshal) hseq _

end

/-- Settles O18: UNMARSHAL's lines, one after another, for RX_LEN within RXBUF and above it. -/
theorem unmarshalDecodesTheReceivedFrame : Obligations.UnmarshalDecodesTheReceivedFrame := by
  intro s hstart hturns hlen
  rcases le_or_gt s.rxLen.toNat s.params.rxBufSize with hrx | hrx
  · obtain ⟨left, hrun⟩ := exec_of_endsWithin hstart hturns hlen fun hseq => unmarshal_endsWithin_ok hseq hrx rfl
    exact ⟨_, hrun, fun _ => rfl, fun h => absurd hrx h.not_ge⟩
  · obtain ⟨left, hrun⟩ := exec_of_endsWithin hstart hturns (by omega) fun hseq => unmarshal_endsWithin_badLength hseq hrx
    exact ⟨_, hrun, fun h => absurd hrx h.not_gt, fun _ => rfl⟩

end Sys2Proof.Machine
end

section
/-! A bus action at the line that issues it: while no answer comes the command waits there, and an answer joins the trace
(42_bus R161, R173, 10_state R64). -/

namespace Sys2Proof.Machine

/-! ## An answered action (42_bus R161) -/

/-- A primitive's step at s answers action a with r: the action joins the trace, none is pending, and only TSTATE may be set
beside it, whichever action was pending. -/
def Answers {P R : Type} (step : State → State × Flow P R) (s : State) (a : Action) (r : BusReply) : Prop :=
  ∃ x flow, ∀ pd, step { s with pending := pd } = ((s.answered a r).setTState x, flow)

section
variable {P Q R A : Type} {s : State} {a : Action} {r : BusReply}

theorem Answers.inCall {step : State → State × Flow Q A} {inside : Q → P} {flow : A → Flow P R} (h : Answers step s a r) :
    Answers (fun s => Machine.inCall (step s) inside fun ok s => (s, flow ok)) s a r := by
  obtain ⟨x, q | ok, h⟩ := h
  · exact ⟨x, .at (inside q), fun pd => by simp only [h pd, inCall_at]⟩
  · exact ⟨x, flow ok, fun pd => by simp only [h pd, inCall_ret]⟩

end

theorem sendByteStep_answered {b : Byte} {p : SendPos} {s : State} {a : Action} (h : p.action b = some a) (r : BusReply) :
    Answers (sendByteStep b p (some r)) s a r := by
  cases p with
  | send =>
    cases h
    exact ⟨s.tstate, _, fun _ => rfl⟩
  | ifNack x => cases x with
    | nack =>
      cases h
      exact ⟨.failed, _, fun _ => rfl⟩
    | ack | lost => cases h
  | ifAck x | ifLost => cases h

theorem startTransfer_answered {P R : Type} {here granted : P} {fail : R} {s : State} (r : BusReply) :
    Answers (startTransfer (some r) here granted fail) s .start r := by
  cases hr : r.start with
  | ok => exact ⟨s.tstate, .at granted, fun _ => by simp only [startTransfer, onBus_some, hr]; rfl⟩
  | held => exact ⟨.failed, .ret fail, fun _ => by simp only [startTransfer, onBus_some, hr]; rfl⟩

theorem sendOrFail_answered {P R : Type} {b : Byte} {p : SendPos} {inside : SendPos → P} {sent : P} {fail : R} {s : State}
    {a : Action} (h : p.action b = some a) (r : BusReply) : Answers (sendOrFail b p (some r) inside sent fail) s a r :=
  .inCall (sendByteStep_answered h r)

theorem busWriteStep_answered {wa : Half} {payload : List Byte} {p : WritePos} {s : State} {a : Action}
    (h : p.action s.devAddr = some a) (r : BusReply) : Answers (busWriteStep wa payload p (some r)) s a r := by
  cases p with
  | start =>
    cases h
    exact startTransfer_answered r
  | addr p => exact sendOrFail_answered (b := addrByte s.devAddr false) h r
  | byte b rest p => exact sendOrFail_answered h r
  | stop =>
    cases h
    exact ⟨s.tstate, _, fun _ => rfl⟩
  | _ => cases h

theorem busReadStep_answered {wa : Half} {n : Nat} {p : ReadPos} {s : State} {a : Action}
    (h : p.action s.devAddr n = some a) (r : BusReply) : Answers (busReadStep wa n p (some r)) s a r := by
  cases p with
  | start =>
    cases h
    exact startTransfer_answered r
  | addrW p => exact sendOrFail_answered (b := addrByte s.devAddr false) h r
  | addrR p => exact sendOrFail_answered (b := addrByte s.devAddr true) h r
  | byte b rest p => exact sendOrFail_answered h r
  | rstart =>
    cases h
    cases hr : r.rstart with
    | ok => exact ⟨s.tstate, .at (.addrR .send), fun _ => by simp only [busReadStep, onBus_some, hr]; rfl⟩
    | lost => exact ⟨.failed, .ret none, fun _ => by simp only [busReadStep, onBus_some, hr]; rfl⟩
  | lenCheck v =>
    by_cases hv : v.length ≠ n
    · rw [ReadPos.action, if_pos hv] at h
      cases h
      exact ⟨.failed, .ret none, fun _ => by rw [busReadStep, if_pos hv]; rfl⟩
    · rw [ReadPos.action, if_neg hv] at h
      cases h
  | rdbytes | stop v =>
    cases h
    exact ⟨s.tstate, _, fun _ => rfl⟩
  | _ => cases h

theorem resyncStep_answered {p : ResyncPos} {s : State} {a : Action} (h : p.action = some a) (r : BusReply) :
    Answers (resyncStep p (some r)) s a r := by
  cases p with
  | start =>
    cases h
    cases hr : r.start <;> exact ⟨s.tstate, _, fun _ => by simp only [resyncStep, onBus_some, hr]; rfl⟩
  | startAgain =>
    cases h
    cases hr : r.start <;> exact ⟨s.tstate, _, fun _ => by simp only [resyncStep, onBus_some, hr]; rfl⟩
  | dummy | stop =>
    cases h
    exact ⟨s.tstate, _, fun _ => rfl⟩
  | _ => cases h

theorem retryStep_answered {f : List Byte} {p : RetryPos} {s : State} {a : Action} (h : p.action s.devAddr = some a)
    (r : BusReply) : Answers (retryStep f p (some r)) s a r := by
  obtain ⟨n, l⟩ := p
  cases l with
  | write w => exact .inCall (busWriteStep_answered (wa := s.ioaddr) h r)
  | resync q => exact .inCall (resyncStep_answered h r)
  | _ => cases h

theorem retryStep_internal {f : List Byte} {p : RetryPos} {s : State} (h : p.action s.devAddr = none)
    (reply : Option BusReply) : retryStep f p reply s = retryStep f p none s := by
  obtain ⟨n, l⟩ := p
  cases l with
  | write w => simp only [retryStep, busWriteStep_internal (p := w) h reply]
  | resync q => simp only [retryStep, resyncStep_internal (p := q) h reply]
  | _ => rfl

/-! ## The lines of each command -/

/-- Going to the line the command is at changes nothing. -/
theorem State.goto_pos {s : State} {p : Pos} (hp : s.seq.map Seq.pos = some p) : s.goto p = s := by
  obtain ⟨q, hq, rfl⟩ := Option.map_eq_some_iff.1 hp
  cases s
  simp_all [State.goto]

theorem callLine_await {P A : Type} {x : State × Flow P A} {s : State} {a : Action} {p : P} {inside : P → Pos}
    {k : A → State → State} (hp : s.seq.map Seq.pos = some (inside p)) (hx : x = (s.await a, .at p)) :
    callLine x inside k = s.await a := by
  rw [hx, callLine_at]
  exact State.goto_pos (s := s.await a) hp

/-- While no answer comes, a line that issues an action holds it and stays where it is (42_bus R173). -/
theorem lineStep_unanswered {s : State} {p : Pos} {a : Action} (hp : s.seq.map Seq.pos = some p) (h : s.actionAt p = some a) :
    lineStep p none s = s.await a := by
  cases p
  case busWrite l => cases l with
    | transfer p => exact callLine_await hp (busWriteStep_unanswered h)
    | _ => cases h
  case busRead l => cases l with
    | transfer n p => exact callLine_await (inside := fun p => .busRead (.transfer n p)) hp (busReadStep_unanswered h)
    | _ => cases h
  case resync l => cases l with
    | run p => exact callLine_await hp (resyncStep_unanswered h)
    | setPhase => cases h
  case wake l => cases l with
    | pulse => cases h; rfl
    | setPhase => cases h
  case sleep idle l => cases l with
    | write p => exact callLine_await hp (retryStep_unanswered h)
    | _ => cases h
  case execute wakeFirst l => cases l with
    | pulse => cases h; rfl
    | write p => exact callLine_await hp (retryStep_unanswered h)
    | readCount p => exact callLine_await hp (busReadStep_unanswered h)
    | readBody c p => exact callLine_await (inside := fun p => .execute wakeFirst (.readBody c p)) hp (busReadStep_unanswered h)
    | failResync p => exact callLine_await hp (resyncStep_unanswered h)
    | _ => cases h
  all_goals cases h

/-- The action joins the trace of t with answer r, and none is pending; t does not depend on which action was. -/
def AnswersTo (line : State → State) (s : State) (a : Action) (r : BusReply) (t : State) : Prop :=
  t.trace = s.trace ++ [a.event r] ∧ t.pending = none ∧ ∀ pd, line { s with pending := pd } = t

/-- A command's line that calls a primitive adds nothing to the trace and issues no action of its own. -/
theorem Answers.callLine {P A : Type} {step : State → State × Flow P A} {inside : P → Pos} {k : A → State → State} {s : State}
    {a : Action} {r : BusReply} (h : Answers step s a r)
    (hk : ∀ x t, (k x t).trace = t.trace ∧ (k x t).pending = t.pending) :
    ∃ t, AnswersTo (fun s => Machine.callLine (step s) inside k) s a r t := by
  obtain ⟨x, flow, h⟩ := h
  refine ⟨Machine.callLine ((s.answered a r).setTState x, flow) inside k, ?_, ?_,
    fun pd => congrArg (Machine.callLine · _ _) (h pd)⟩
  · rcases flow with p | y
    · rfl
    · exact (hk y _).1
  · rcases flow with p | y
    · rfl
    · exact (hk y _).2

/-- An answer to the action that a line issues (42_bus R161). -/
theorem lineStep_answered {s : State} {p : Pos} {a : Action} (h : s.actionAt p = some a) (r : BusReply) :
    ∃ t, AnswersTo (lineStep p (some r)) s a r t := by
  cases p
  case busWrite l => cases l with
    | transfer p =>
      exact (busWriteStep_answered (wa := s.waddr) (payload := s.bufSlice .txbuf 0 s.wrLen.toNat) h r).callLine
        fun _ _ => ⟨rfl, rfl⟩
    | _ => cases h
  case busRead l => cases l with
    | transfer n p => exact (busReadStep_answered (wa := s.waddr) h r).callLine fun _ _ => ⟨rfl, rfl⟩
    | _ => cases h
  case resync l => cases l with
    | run p => exact (resyncStep_answered h r).callLine fun ok _ => by cases ok <;> exact ⟨rfl, rfl⟩
    | _ => cases h
  case wake l => cases l with
    | pulse =>
      cases h
      exact ⟨(s.answered wakePulse r).goto (.complete .ok), rfl, rfl, fun _ => rfl⟩
    | setPhase => cases h
  case sleep idle l => cases l with
    | write p =>
      exact (retryStep_answered (f := s.bufSlice .txbuf 0 s.frameLen.toNat) h r).callLine fun _ _ => ⟨rfl, rfl⟩
    | _ => cases h
  case execute wakeFirst l => cases l with
    | pulse =>
      cases h
      exact ⟨(s.answered wakePulse r).goto (.execute wakeFirst (.write retryStart)), rfl, rfl, fun _ => rfl⟩
    | write p =>
      exact (retryStep_answered (f := s.bufSlice .txbuf 0 s.frameLen.toNat) h r).callLine fun _ _ => ⟨rfl, rfl⟩
    | readCount p => exact (busReadStep_answered (wa := s.ioaddr) h r).callLine fun _ _ => ⟨rfl, rfl⟩
    | readBody c p => exact (busReadStep_answered (wa := s.ioaddr) h r).callLine fun _ _ => ⟨rfl, rfl⟩
    | failResync p => exact (resyncStep_answered h r).callLine fun ok _ => by cases ok <;> exact ⟨rfl, rfl⟩
    | _ => cases h
  all_goals cases h

/-- A line that issues no action does not look at the reply. -/
theorem lineStep_internal {s : State} {p : Pos} (h : s.actionAt p = none) (reply : Option BusReply) :
    lineStep p reply s = lineStep p none s := by
  cases p with
  | busWrite l => cases l with
    | transfer p => simp only [lineStep, busWriteLine, busWriteStep_internal h reply]
    | result ok => cases ok <;> rfl
    | _ => rfl
  | busRead l => cases l with
    | transfer n p => simp only [lineStep, busReadLine, busReadStep_internal h reply]
    | result n v => cases v <;> rfl
    | _ => rfl
  | resync l => cases l with
    | run p => simp only [lineStep, resyncLine, resyncStep_internal h reply]
    | setPhase => rfl
  | wake l => cases l with
    | pulse => cases h
    | setPhase => rfl
  | sleep idle l => cases l with
    | write p => simp only [lineStep, sleepLine, retryStep_internal h reply]
    | _ => rfl
  | execute wakeFirst l => cases l with
    | pulse => cases h
    | write p => simp only [lineStep, executeLine, retryStep_internal h reply]
    | readCount p | readBody c p => simp only [lineStep, executeLine, busReadStep_internal h reply]
    | failResync p => simp only [lineStep, executeLine, resyncStep_internal h reply]
    | check r => cases r <;> rfl
    | countResult v | bodyResult c v => cases v <;> rfl
    | checkFrame c v => cases v <;> rfl
    | _ => rfl
  | _ => rfl

/-! ## The moves left (log 1) -/

/-- What the blinding hides. -/
def State.hostFields (s : State) : List Turn × List Response × Nat × Bool × BitVec 3 × Bool :=
  (s.turns, s.hostLog, s.draws, s.ie, s.retries, s.ovr)

theorem State.eq_of_hostBlind {s t : State} (hblind : s.hostBlind = t.hostBlind) (hfields : s.hostFields = t.hostFields) : s = t := by
  cases s
  cases t
  simp_all [State.hostBlind, State.hostFields]

theorem hostFields_lineInvariant (s : State) : LineInvariant fun t => t.hostFields = s.hostFields where
  goto _ _ ht := ht
  complete _ _ ht := ht
  setPhase _ _ ht := ht
  setAttempts _ _ ht := ht
  setRxLen _ _ ht := ht
  setFrameLen _ _ ht := ht
  setCrc _ _ ht := ht
  noFrame _ ht := ht
  validRsp _ _ _ ht := ht
  store t b a v ht := by
    obtain ⟨m, hm⟩ := State.setBufBytes_frame b a v t
    rw [hm]
    exact ht
  bus _ _ _ _ ht := ht

/-- No line reads or writes the moves left. -/
theorem lineStep_withTurns (p : Pos) (reply : Option BusReply) (s : State) (ts : List Turn) :
    lineStep p reply { s with turns := ts } = { lineStep p reply s with turns := ts } := by
  have keeps : ∀ u : State, (lineStep p reply u).hostFields = u.hostFields := fun u =>
    (hostFields_lineInvariant u).lineStep p reply rfl
  refine State.eq_of_hostBlind ?_ ?_
  · exact (lineStep_hostBlind p reply { s with turns := ts }).symm.trans (lineStep_hostBlind p reply s)
  · exact (keeps _).trans (congrArg (fun f => (ts, f.2)) (keeps s)).symm

/-- The controller's move while a command runs, and then the run from where its line leads. -/
theorem State.runTurns_ctrl {s : State} {q : Seq} (hq : s.seq = some q) (hp : q.pos ≠ .accepted) (reply : Option BusReply)
    (rest : List Turn) : State.runTurns (.ctrl reply :: rest) s = State.runTurns rest (lineStep q.pos reply s) := by
  have step : State.advance (.ctrl reply) { s with turns := rest } = lineStep q.pos reply { s with turns := rest } :=
    State.ctrlStep_line (s := { s with turns := rest }) hq hp reply
  rw [State.runTurns_running hq, step, lineStep_withTurns, State.runTurns_turns]

/-! ## Runs in which no answer comes (42_bus R173) -/

/-- Without the host's accesses, moves that neither answer nor reset are all the same. -/
theorem filter_isHost_eq_replicate {ts : List Turn} (h : ts.all (fun x => x.notReset && !x.answered) = true) :
    ts.filter (fun x => !x.isHost) = List.replicate (ts.filter Turn.isCtrl).length (.ctrl none) := by
  induction ts with
  | nil => rfl
  | cons x rest ih =>
    simp only [List.all_cons, Bool.and_eq_true] at h
    cases x with
    | host a => exact ih h.2
    | reset => cases h.1.1
    | ctrl reply => cases reply with
      | some r => cases h.1.2
      | none => exact congrArg (List.cons _) (ih h.2)

theorem State.ne_accepted_of_action {s : State} {p : Pos} {a : Action} (h : s.actionAt p = some a) : p ≠ .accepted := by
  rintro rfl
  cases h

/-- Unanswered moves at the position of an action leave it held. -/
theorem runTurns_unanswered (n : Nat) {s : State} {q : Seq} {a : Action} (hq : s.seq = some q) (h : s.actionAt q.pos = some a) :
    State.runTurns (List.replicate (n + 1) (.ctrl none)) s = { s.await a with turns := [] } := by
  have hp := State.ne_accepted_of_action h
  induction n generalizing s with
  | zero => rw [List.replicate_one, State.runTurns_ctrl hq hp, lineStep_unanswered (by simp [hq]) h, State.runTurns_nil]
  | succ n ih =>
    rw [List.replicate_succ, State.runTurns_ctrl hq hp, lineStep_unanswered (by simp [hq]) h]
    exact ih (s := s.await a) hq h

/-- The command waits at q with action a held, BUSY set, DONE clear, and the trace and RESULT of s. -/
structure Waits (s : State) (q : Seq) (a : Action) (t : State) : Prop where
  seq : t.seq = some q
  busy : t.busy = true
  done : t.done = false
  trace : t.trace = s.trace
  pending : t.pending = some a
  result : t.result = s.result

/-- What the host does while the command waits shows in none of these. -/
theorem Waits.of_hostBlind {s t u : State} {q : Seq} {a : Action} (h : Waits s q a u) (htu : t.hostBlind = u.hostBlind) :
    Waits s q a t where
  seq := (congrArg State.seq htu).trans h.seq
  busy := (congrArg State.busy htu).trans h.busy
  done := (congrArg State.done htu).trans h.done
  trace := (congrArg State.trace htu).trans h.trace
  pending := (congrArg State.pending htu).trans h.pending
  result := (congrArg State.result htu).trans h.result

theorem Waits.await {s t : State} {q : Seq} {a : Action} (hq : t.seq = some q) (hbusy : t.busy = true) (hdone : t.done = false)
    (htrace : t.trace = s.trace) (hresult : t.result = s.result) : Waits s q a { t.await a with turns := [] } :=
  ⟨hq, hbusy, hdone, htrace, rfl, hresult⟩

/-- A run without an answer waits when the run over the controller's moves alone does (20_memory R75). -/
theorem waits_of_replicate {s u : State} {ts : List Turn} {q : Seq} {a : Action} {n : Nat} (hbusy : s.busy = true)
    (hdone : s.done = false) (hts : ts.all (fun x => x.notReset && !x.answered) = true)
    (hn : (ts.filter Turn.isCtrl).length = n) (h : Waits u q a (State.runTurns (List.replicate n (.ctrl none)) s)) :
    Waits u q a (State.runTurns ts s) := by
  have notReset : ts.all Turn.notReset = true :=
    List.all_eq_true.2 fun x hx => (Bool.and_eq_true_iff.1 (List.all_eq_true.1 hts x hx)).1
  have blind := runTurns_hostBlind notReset (s := s) (fun _ => ⟨hbusy, hdone⟩) rfl
  rw [filter_isHost_eq_replicate hts, hn] at blind
  exact h.of_hostBlind blind

/-- WAKE and RESYNC: the second line issues the action. -/
theorem waits_from_firstLine {s : State} {q : Seq} {p : Pos} {f : Phase} {l : Pos} {a : Action} (n : Nat) (hq : s.seq = some q)
    (hbusy : s.busy = true) (hdone : s.done = false) (hp : p ≠ .accepted)
    (hline : ∀ t, lineStep p none t = (t.setPhase f).goto l) (hact : (s.setPhase f).actionAt l = some a) :
    Waits s { q with pos := l } a (State.runTurns (List.replicate (n + 2) (.ctrl none)) (s.goto p)) := by
  have hgo : (s.goto p).seq = some { q with pos := p } := by simp [hq]
  have hl : (((s.goto p).setPhase f).goto l).seq = some { q with pos := l } := by simp [hq]
  rw [List.replicate_succ, State.runTurns_ctrl hgo hp, hline, runTurns_unanswered n hl hact]
  exact .await hl hbusy hdone rfl rfl

/-- Settles O48: at the position of an action a run waits until an answer comes, and the answer joins the trace. -/
theorem unansweredBusActionHangs : Obligations.UnansweredBusActionHangs := by
  refine ⟨?first, ?line, ?answer⟩
  case first =>
    intro s i a hi hstart hbusy hdone hts hlen
    obtain ⟨q, hq, hp⟩ := State.atStart_iff.1 hstart
    obtain ⟨n, hn⟩ := Nat.exists_eq_add_of_le' hlen
    have waits : ∃ q', Waits s q' a (State.runTurns (List.replicate (n + 2) (.ctrl none)) (s.goto (firstLine i))) := by
      simp only [List.mem_cons, Prod.mk.injEq, List.not_mem_nil, or_false] at hi
      obtain ⟨rfl, rfl⟩ | ⟨rfl, rfl⟩ := hi
      · exact ⟨_, waits_from_firstLine n hq hbusy hdone (firstLine_ne_accepted _) (fun _ => rfl) rfl⟩
      · exact ⟨_, waits_from_firstLine n hq hbusy hdone (firstLine_ne_accepted _) (fun _ => rfl) rfl⟩
    obtain ⟨q', hw⟩ := waits
    have w := waits_of_replicate (s := s.goto (firstLine i)) hbusy hdone hts hn hw
    exact ⟨_, by rw [exec_eq, State.runCommand_atStart hq hp], w.busy, w.done, w.trace, w.pending, w.result⟩
  case line =>
    intro s i q a hq hact hbusy hdone hts hlen
    obtain ⟨n, hn⟩ := Nat.exists_eq_add_of_le' hlen
    have hp := State.ne_accepted_of_action hact
    have w : Waits s q a (State.runTurns s.turns s) := by
      refine waits_of_replicate hbusy hdone hts hn ?_
      rw [runTurns_unanswered n hq hact]
      exact .await hq hbusy hdone rfl rfl
    exact ⟨_, by rw [exec_eq, State.runCommand_inProgress hq hp], w.seq, w.busy, w.done, w.trace, w.pending, w.result⟩
  case answer =>
    intro s i q a r hq hact hts
    have hp := State.ne_accepted_of_action hact
    obtain ⟨t, htrace, hpending, hline⟩ := lineStep_answered hact r
    refine ⟨{ t with turns := [] }, ?_, htrace, hpending⟩
    rw [exec_eq, State.runCommand_inProgress hq hp, hts, State.runTurns_ctrl hq hp, State.runTurns_nil]
    exact congrArg (fun t => Host.Outcome.next { t with turns := [] }) (hline s.pending)

end Sys2Proof.Machine
end

section
/-! The first lines of the transfer commands: the check of TSTATE (42_bus R166) and of the length registers (R170, R171), and what
follows from the first for every command that starts with TSTATE = FAILED. -/

namespace Sys2Proof.Machine

/-! ## Runs, line by line (00_scope R26) -/

/-- The command of snapshot q runs, and is at line p. -/
def State.onLine (q : Seq) (p : Pos) (s : State) : State := { s with seq := some { q with pos := p } }

theorem State.goto_eq_onLine {s : State} {q : Seq} (hq : s.seq = some q) (p : Pos) : s.goto p = s.onLine q p := by
  simp [State.goto, State.onLine, hq]

/-- Over any n moves that `ok` allows, the command in s ends, the moves left aside, in a state that Q holds of. (`EndsWithin` is the
case of any controller moves and one end state.) -/
def EndsIn (ok : Turn → Bool) (n : Nat) (s : State) (Q : State → Prop) : Prop :=
  ∀ ts : List Turn, ts.all ok = true → n ≤ ts.length → ∃ t left, State.runTurns ts s = { t with turns := left } ∧ Q t

section
variable {ok : Turn → Bool} {m n : Nat} {s u : State} {q : Seq} {p : Pos} {code : ResultCode} {Q : State → Prop}

theorem EndsIn.mono (h : EndsIn ok n s Q) (hmn : n ≤ m) : EndsIn ok m s Q := fun ts hts hlen => h ts hts (hmn.trans hlen)

/-- Completion ends the run. -/
theorem EndsIn.complete (h : Q (s.complete code)) : EndsIn ok n (s.complete code) Q :=
  fun ts _ _ => ⟨_, ts, State.runTurns_idle rfl ts, h⟩

/-- A move of the controller at a line, and then the run from where the line leads. -/
theorem EndsIn.step (hp : p ≠ .accepted)
    (h : ∀ x, ok x = true → ∃ reply, x = .ctrl reply ∧ EndsIn ok n (lineStep p reply (s.onLine q p)) Q) :
    EndsIn ok (n + 1) (s.onLine q p) Q := by
  intro ts hts hlen
  cases ts with
  | nil => simp at hlen
  | cons x rest =>
    simp only [List.all_cons, Bool.and_eq_true] at hts
    obtain ⟨reply, rfl, hu⟩ := h x hts.1
    rw [State.runTurns_ctrl (s := s.onLine q p) rfl hp]
    exact hu rest hts.2 (by simpa using hlen)

/-- A line that does not look at the reply. -/
theorem EndsIn.line (hok : ∀ x, ok x = true → x.isCtrl = true) (hp : p ≠ .accepted) (h : EndsIn ok n u Q)
    (hline : ∀ reply, lineStep p reply (s.onLine q p) = u) : EndsIn ok (n + 1) (s.onLine q p) Q := by
  refine .step hp fun x hx => ?_
  cases x with
  | host a => cases hok _ hx
  | reset => cases hok _ hx
  | ctrl reply => exact ⟨reply, rfl, by rwa [hline]⟩

/-- The completion step, the command having gone to it. -/
theorem EndsIn.completion (hok : ∀ x, ok x = true → x.isCtrl = true) (h : Q (s.complete code)) :
    EndsIn ok 1 (s.onLine q (.complete code)) Q :=
  .line hok nofun (.complete h) fun _ => rfl

/-- A command at its start ends where its lines, from the first on, lead (60_exceptions R241). -/
theorem exec_of_endsIn {i : Instr} (hstart : s.atStart = true) (hturns : s.turns.all ok = true) (hlen : n ≤ s.turns.length)
    (h : ∀ q, EndsIn ok n (s.onLine q (firstLine i)) Q) : ∃ t left, exec i s = .next { t with turns := left } ∧ Q t := by
  obtain ⟨q, hq, hp⟩ := State.atStart_iff.1 hstart
  obtain ⟨t, left, hrun, ht⟩ := h q s.turns hturns hlen
  exact ⟨t, left, by rw [exec_eq, State.runCommand_atStart hq hp, State.goto_eq_onLine hq, hrun], ht⟩

/-! ## The checks of BUS_WRITE and BUS_READ (42_bus R170, R171) -/

variable (hok : ∀ x, ok x = true → x.isCtrl = true)
include hok

/-- The lines up to the check of WR_LEN. -/
theorem busWrite_endsIn_of_lenCheck (hts : s.tstate ≠ .failed)
    (h : EndsIn ok n ((s.setPhase .check).onLine q (.busWrite .lenCheck)) Q) :
    EndsIn ok (n + 2) (s.onLine q (firstLine .busWrite)) Q := by
  refine .line hok nofun (u := (s.setPhase .check).onLine q (.busWrite .seqCheck)) ?_ fun _ => rfl
  exact .line hok nofun h fun _ => if_neg hts

/-- The lines up to the check of RD_LEN. -/
theorem busRead_endsIn_of_lenCheck (hts : s.tstate ≠ .failed)
    (h : EndsIn ok n ((s.setPhase .check).onLine q (.busRead .lenCheck)) Q) :
    EndsIn ok (n + 2) (s.onLine q (firstLine .busRead)) Q := by
  refine .line hok nofun (u := (s.setPhase .check).onLine q (.busRead .seqCheck)) ?_ fun _ => rfl
  exact .line hok nofun h fun _ => if_neg hts

theorem busWrite_endsIn_badLength (hts : s.tstate ≠ .failed) (hlen : s.params.maxCmdSize < s.wrLen.toNat)
    (h : Q ((s.setPhase .check).complete .badLength)) : EndsIn ok 3 (s.onLine q (firstLine .busWrite)) Q :=
  busWrite_endsIn_of_lenCheck hok hts <| .line hok nofun (.complete h) fun _ => if_pos hlen

theorem busRead_endsIn_badLength (hts : s.tstate ≠ .failed)
    (hlen : s.rdLen.toNat < 1 ∨ s.params.rxBufSize < s.rdLen.toNat)
    (h : Q ((s.setPhase .check).complete .badLength)) : EndsIn ok 3 (s.onLine q (firstLine .busRead)) Q :=
  busRead_endsIn_of_lenCheck hok hts <| .line hok nofun (.complete h) fun _ => if_pos hlen

end

/-- Settles O25: the third line of either command is the check of its length register. -/
theorem busCommandsRefuseBadLengths : Obligations.BusCommandsRefuseBadLengths := by
  intro s hstart hidle hturns hlen
  have hts : s.tstate ≠ .failed := by simp [hidle]
  refine ⟨fun h => ?_, fun h => ?_⟩
  · obtain ⟨_, left, hrun, rfl⟩ := exec_of_endsIn hstart hturns (by omega) fun q =>
      busWrite_endsIn_badLength (Q := (· = (s.setPhase .check).complete .badLength)) (fun _ => id) hts h rfl
    exact ⟨_, hrun, rfl⟩
  · obtain ⟨_, left, hrun, rfl⟩ := exec_of_endsIn hstart hturns (by omega) fun q =>
      busRead_endsIn_badLength (Q := (· = (s.setPhase .check).complete .badLength)) (fun _ => id) hts (by omega) rfl
    exact ⟨_, hrun, rfl⟩

/-! ## TSTATE = FAILED at the start of a transfer command (42_bus R166) -/

/-- The line that checks TSTATE, on FAILED. -/
theorem EndsIn.seqError {n : Nat} {s : State} {q : Seq} {p l : Pos} (hfailed : s.tstate = .failed) (hp : p ≠ .accepted)
    (hline : ∀ reply t, lineStep p reply t = if t.tstate = .failed then t.complete .seqError else t.goto l) :
    EndsIn Turn.isCtrl (n + 1) (s.onLine q p) (· = s.complete .seqError) :=
  .line (fun _ => id) hp (.complete rfl) fun reply => (hline reply _).trans (if_pos hfailed)

/-- RSP after a transfer command was refused: EXECUTE alone clears it first (43_transaction R196). -/
def refusedRsp (s : State) : Instr → Rsp
  | .execute _ => noFrame
  | _ => s.rsp

theorem endsIn_seqError {s : State} {q : Seq} {i : Instr} (hi : i ∈ [.busWrite, .busRead, .execute false, .execute true,
    .sleep false, .sleep true]) (hfailed : s.tstate = .failed) :
    EndsIn Turn.isCtrl 3 (s.onLine q (firstLine i))
      (· = ((s.setPhase .check).setRsp (refusedRsp s i)).complete .seqError) := by
  have hctrl : ∀ x : Turn, x.isCtrl = true → x.isCtrl = true := fun _ => id
  cases i with
  | busWrite =>
    refine .line hctrl nofun (u := (s.setPhase .check).onLine q (.busWrite .seqCheck)) ?_ fun _ => rfl
    exact .seqError hfailed nofun fun _ _ => rfl
  | busRead =>
    refine .line hctrl nofun (u := (s.setPhase .check).onLine q (.busRead .seqCheck)) ?_ fun _ => rfl
    exact .seqError hfailed nofun fun _ _ => rfl
  | sleep idle =>
    refine .line hctrl nofun (u := (s.setPhase .check).onLine q (.sleep idle .seqCheck)) ?_ fun _ => rfl
    exact .seqError hfailed nofun fun _ _ => rfl
  | execute w =>
    refine .line hctrl nofun (u := (s.setPhase .check).onLine q (.execute w .clearRsp)) ?_ fun _ => rfl
    refine .line hctrl nofun (u := ((s.setPhase .check).setRsp noFrame).onLine q (.execute w .seqCheck)) ?_ fun _ => rfl
    exact .seqError (n := 0) hfailed nofun fun _ _ => rfl
  | _ => simp at hi

/-- Settles O35: the check of TSTATE comes before every bus action. -/
theorem noTransferWhileFailed : Obligations.NoTransferWhileFailed := by
  intro s i hi hstart hfailed hturns hlen
  obtain ⟨_, left, hrun, rfl⟩ := exec_of_endsIn hstart hturns (by omega) fun q => endsIn_seqError (q := q) hi hfailed
  have hrsp : refusedRsp s i = if i = .execute false ∨ i = .execute true then noFrame else s.rsp := by
    cases i with
    | execute w => cases w <;> simp [refusedRsp]
    | _ => simp [refusedRsp]
  exact ⟨_, hrun, by rw [← hrsp]; rfl⟩

/-! ## Which commands leave FAILED (42_bus R166) -/

/-- A line of a transfer command up to its check of TSTATE, or the completion step. -/
def Pos.beforeTransfer : Pos → Prop
  | .busWrite l => l = .setCheck ∨ l = .seqCheck
  | .busRead l => l = .setCheck ∨ l = .seqCheck
  | .sleep _ l => l = .setCheck ∨ l = .seqCheck
  | .execute _ l => l = .setCheck ∨ l = .clearRsp ∨ l = .seqCheck
  | .complete _ => True
  | .accepted | .crc _ _ | .marshal _ | .unmarshal _ | .wake _ | .resync _ => False

/-- TSTATE is FAILED, and a command still running has sent nothing. -/
structure FailedBeforeTransfer (s : State) : Prop where
  tstate : s.tstate = .failed
  line : ∀ q, s.seq = some q → q.pos.beforeTransfer

theorem FailedBeforeTransfer.goto {s : State} {p : Pos} (hs : s.tstate = .failed) (hp : p.beforeTransfer) :
    FailedBeforeTransfer (s.goto p) :=
  ⟨hs, fun q hq => by
    obtain ⟨_, _, rfl⟩ := Option.map_eq_some_iff.1 (s.goto_seq p ▸ hq)
    exact hp⟩

theorem FailedBeforeTransfer.complete {s : State} (hs : s.tstate = .failed) (code : ResultCode) :
    FailedBeforeTransfer (s.complete code) := ⟨hs, nofun⟩

/-- The check of TSTATE completes the command. -/
theorem FailedBeforeTransfer.seqCheck {s : State} {p : Pos} (hs : s.tstate = .failed) :
    FailedBeforeTransfer (if s.tstate = .failed then s.complete .seqError else s.goto p) := by
  rw [if_pos hs]
  exact .complete hs _

/-- No line before a transfer command's check leads past it. -/
theorem lineStep_failedBeforeTransfer {s : State} {p : Pos} (hp : p.beforeTransfer) (reply : Option BusReply)
    (hs : s.tstate = .failed) : FailedBeforeTransfer (lineStep p reply s) := by
  cases p with
  | complete code => exact .complete hs code
  | busWrite l | busRead l | sleep _ l =>
    obtain rfl | rfl := hp
    · exact .goto hs (.inr rfl)
    · exact .seqCheck hs
  | execute w l =>
    obtain rfl | rfl | rfl := hp
    · exact .goto hs (.inr (.inl rfl))
    · exact .goto hs (.inr (.inr rfl))
    · exact .seqCheck hs
  | accepted | crc _ _ | marshal _ | unmarshal _ | wake _ | resync _ => exact hp.elim

/-- A host access to a busy controller moves neither TSTATE nor the position (20_memory R75). -/
theorem State.access_failedBeforeTransfer {s : State} (hbusy : s.busy = true) (a : Access) (hs : FailedBeforeTransfer s) :
    FailedBeforeTransfer (s.access a) := by
  obtain ⟨ie, rt, d, o, l, n, he⟩ := State.access_busy hbusy a
  rw [he]
  exact ⟨hs.tstate, hs.line⟩

/-- A transfer command that starts with TSTATE = FAILED ends, or still runs, with it. -/
theorem exec_tstate_of_failed {s t : State} {i : Instr} (hfirst : (firstLine i).beforeTransfer) (hstart : s.atStart = true)
    (hbusy : s.busy = true) (hfailed : s.tstate = .failed) (hturns : s.turns.all Turn.notReset = true)
    (h : exec i s = .next t) : t.tstate = .failed := by
  obtain ⟨q, hq, hp⟩ := State.atStart_iff.1 hstart
  have start : (s.goto (firstLine i)).RunsBusy i := ⟨fun _ => hbusy, .goto (firstLine_inRunOf i) s⟩
  rw [exec_eq, State.runCommand_atStart hq hp] at h
  cases h
  have run := State.runTurns_induct (I := fun u => u.RunsBusy i ∧ FailedBeforeTransfer u)
    (fun _ _ ⟨hrb, hu⟩ => ⟨hrb, hu.tstate, hu.line⟩)
    (fun _ _ _ hq hx ⟨hrb, hu⟩ => advance_keeps_inRun
      (fun _ q reply hq _ hu => lineStep_failedBeforeTransfer (hu.line q hq) reply hu.tstate)
      (fun _ a hb hu => State.access_failedBeforeTransfer hb a hu) hq hx hrb hu)
    hturns ⟨start, .goto hfailed hfirst⟩
  exact run.2.tstate

/-- Settles O47: the transfer commands stop at their check, and the rest, RESYNC aside, do not write TSTATE. -/
theorem onlyResyncLeavesFailed : Obligations.OnlyResyncLeavesFailed := by
  intro s t i hi hstart hbusy hfailed hturns h
  have untouched := commandsWriteOnlyTheirOutputs s t i hbusy hturns hstart h
  cases i with
  | resync => exact absurd rfl hi
  | busWrite | busRead | sleep idle | execute w =>
    exact exec_tstate_of_failed (by exact .inl rfl) hstart hbusy hfailed hturns h
  | crcDbuf | crcTxbuf | crcRxbuf =>
    obtain ⟨-, -, -, -, hts, -⟩ := untouched
    exact hts.trans hfailed
  | marshal | unmarshal =>
    obtain ⟨-, -, -, -, hts, -⟩ := untouched
    exact hts.trans hfailed
  | wake =>
    obtain ⟨-, -, -, -, -, hts, -⟩ := untouched
    exact hts.trans hfailed

end Sys2Proof.Machine
end

section
/-! The bus primitives, run while every action is answered: the traces they leave and what they then answer (42_bus R161 to R165,
R169). -/

namespace Sys2Proof.Machine

/-! ## What the environment's answers let into the trace -/

/-- The entry of an action answered by a reply that R allows. -/
def Event.Allowed (R : BusReply → Bool) (e : Event) : Prop := ∃ (a : Action) (r : BusReply), R r = true ∧ e = a.event r

/-- Every entry is of an action answered by a reply that R allows. -/
def AllowedTrace (R : BusReply → Bool) (tr : List Event) : Prop := ∀ e ∈ tr, e.Allowed R

section
variable {R : BusReply → Bool}

theorem Event.allowed_event {r : BusReply} (hr : R r = true) (a : Action) : (a.event r).Allowed R := ⟨a, r, hr, rfl⟩

theorem Event.allowed_start {x : StartReply} (h : (Event.start x).Allowed R) : ∃ r, R r = true ∧ r.start = x := by
  obtain ⟨a, r, hr, he⟩ := h
  cases a <;> cases he
  exact ⟨r, hr, rfl⟩

theorem Event.allowed_rstart {x : RstartReply} (h : (Event.rstart x).Allowed R) : ∃ r, R r = true ∧ r.rstart = x := by
  obtain ⟨a, r, hr, he⟩ := h
  cases a <;> cases he
  exact ⟨r, hr, rfl⟩

theorem Event.allowed_wrbyte {b : Byte} {x : ByteReply} (h : (Event.wrbyte b x).Allowed R) : ∃ r, R r = true ∧ r.byte = x := by
  obtain ⟨a, r, hr, he⟩ := h
  cases a <;> cases he
  exact ⟨r, hr, rfl⟩

theorem Event.allowed_rdbytes {n : Nat} {v : List Byte} (h : (Event.rdbytes n v).Allowed R) : ∃ r, R r = true ∧ r.data = v := by
  obtain ⟨a, r, hr, he⟩ := h
  cases a <;> cases he
  exact ⟨r, hr, rfl⟩

theorem allowedTrace_nil : AllowedTrace R [] := nofun

theorem allowedTrace_cons {e : Event} {tr : List Event} : AllowedTrace R (e :: tr) ↔ e.Allowed R ∧ AllowedTrace R tr :=
  List.forall_mem_cons

theorem allowedTrace_singleton {e : Event} (h : e.Allowed R) : AllowedTrace R [e] := allowedTrace_cons.2 ⟨h, allowedTrace_nil⟩

theorem allowedTrace_pair {e e' : Event} (h : e.Allowed R) (h' : e'.Allowed R) : AllowedTrace R [e, e'] :=
  allowedTrace_cons.2 ⟨h, allowedTrace_singleton h'⟩

theorem allowedTrace_append {x y : List Event} : AllowedTrace R (x ++ y) ↔ AllowedTrace R x ∧ AllowedTrace R y :=
  List.forall_mem_append

end

/-! ## The state after some bus events -/

/-- The events have joined the trace, nothing is pending, and TSTATE is x. -/
def State.afterBus (tr : List Event) (x : TState) (s : State) : State :=
  { s with pending := none, trace := s.trace ++ tr, tstate := x }

theorem State.afterBus_answered (tr : List Event) (x : TState) (s : State) (a : Action) (r : BusReply) :
    (s.afterBus tr x).answered a r = s.afterBus (tr ++ [a.event r]) x := by
  simp [State.afterBus, State.answered]

/-! ## Running a primitive to its return -/

/-- Whatever replies that R allows come, `step` returns from p within n steps, in a state and with an answer of which Q holds,
given the number of steps still left. -/
def Returns {P A : Type} (step : P → Option BusReply → State → State × Flow P A) (R : BusReply → Bool)
    (Q : Nat → A → State → Prop) : Nat → P → State → Prop
  | 0, _, _ => False
  | n + 1, p, s => ∀ r, R r = true → Flow.Post (Returns step R Q n) (Q n) (step p (some r) s)

section
variable {P A : Type} {step : P → Option BusReply → State → State × Flow P A} {R : BusReply → Bool}
  {Q : Nat → A → State → Prop} {n : Nat} {p : P} {s : State}

/-- A step that stays inside. -/
theorem Returns.stay {p' : P} {t : State} (hstep : ∀ r, step p (some r) s = (t, .at p')) (h : Returns step R Q n p' t) :
    Returns step R Q (n + 1) p s := fun r _ => by rwa [hstep r]

/-- A step that returns. -/
theorem Returns.ret {x : A} {t : State} (hstep : ∀ r, step p (some r) s = (t, .ret x)) (h : Q n x t) :
    Returns step R Q (n + 1) p s := fun r _ => by rwa [hstep r]

/-- A bus step that stays inside. -/
theorem Returns.bus {a : Action} {tr : List Event} {x : TState} {next : BusReply → P}
    (hstep : ∀ r, step p (some r) (s.afterBus tr x) = ((s.afterBus tr x).answered a r, .at (next r)))
    (h : ∀ r, R r = true → Returns step R Q n (next r) (s.afterBus (tr ++ [a.event r]) x)) :
    Returns step R Q (n + 1) p (s.afterBus tr x) := fun r hr => by
  rw [hstep r, State.afterBus_answered]
  exact h r hr

/-- A bus step that sets TSTATE and returns. -/
theorem Returns.bus_ret {a : Action} {tr : List Event} {x y : TState} {z : A}
    (hstep : ∀ r, step p (some r) (s.afterBus tr x) = (((s.afterBus tr x).answered a r).setTState y, .ret z))
    (h : ∀ r, R r = true → Q n z (s.afterBus (tr ++ [a.event r]) y)) :
    Returns step R Q (n + 1) p (s.afterBus tr x) := fun r hr => by
  rw [hstep r, State.afterBus_answered]
  exact h r hr

end

/-! ## The bytes sent (42_bus R162) -/

section
variable {P A : Type} {step : P → Option BusReply → State → State × Flow P A} {R : BusReply → Bool}
  {Q : Nat → A → State → Prop} {n : Nat} {s : State} {tr : List Event} {x : TState} {fail : A}

/-- `SendByte(b)` in a transfer: OK after two steps, COMMFAIL after at most four. -/
theorem sendOrFail_returns {b : Byte} {inside : SendPos → P} {sent : P}
    (hstep : ∀ p reply tr x, step (inside p) reply (s.afterBus tr x) = sendOrFail b p reply inside sent fail (s.afterBus tr x))
    (hack : (∃ r, R r = true ∧ r.byte = .ack) → (Event.wrbyte b .ack).Allowed R →
      Returns step R Q (n + 2) sent (s.afterBus (tr ++ [.wrbyte b .ack]) x))
    (hfail : ∀ y m, SendRuns b y false → AllowedTrace R y → n ≤ m → Q m fail (s.afterBus (tr ++ y) .failed)) :
    Returns step R Q (n + 4) (inside .send) (s.afterBus tr x) := by
  refine .bus (a := .wrbyte b) (next := fun r => inside (.ifAck r.byte)) (fun r => by rw [hstep]; rfl) fun r hr => ?_
  have hevent := Event.allowed_event hr (.wrbyte b)
  simp only [Action.event] at hevent ⊢
  cases hbyte : r.byte <;> rw [hbyte] at hevent
  case ack => exact .stay (fun _ => by rw [hstep]; rfl) (hack ⟨r, hr, hbyte⟩ hevent)
  case nack =>
    refine .stay (p' := inside (.ifNack .nack)) (fun _ => by rw [hstep]; rfl) ?_
    refine .bus_ret (a := .stop) (y := .failed) (fun _ => by rw [hstep]; rfl) fun r' hr' => ?_
    rw [List.append_assoc]
    exact hfail _ _ .nack (allowedTrace_pair hevent (Event.allowed_event hr' .stop))
      (by omega)
  case lost =>
    refine .stay (p' := inside (.ifNack .lost)) (fun _ => by rw [hstep]; rfl) ?_
    refine .stay (p' := inside .ifLost) (fun _ => by rw [hstep]; rfl) ?_
    refine .ret (fun _ => by rw [hstep]; rfl) ?_
    exact hfail _ _ .lost (allowedTrace_singleton hevent) le_rfl

end

/-! ## The write half that `BusWrite` and `BusRead` begin with (42_bus R163, R164) -/

/-- The lines from Start to the end of the loop over bytes l, in a primitive that answers `fail` for COMMFAIL. -/
structure WriteHalf {P A : Type} (step : P → Option BusReply → State → State × Flow P A) (l : List Byte) (fail : A) where
  start : P
  addr : SendPos → P
  setAddrW : P
  forBytes : List Byte → P
  byte : Byte → List Byte → SendPos → P
  next : P
  start_step : ∀ reply s, step start reply s = startTransfer reply start (addr .send) fail s
  addr_step : ∀ p reply s, step (addr p) reply s = sendOrFail (addrByte s.devAddr false) p reply addr setAddrW fail s
  setAddrW_step : ∀ reply s, step setAddrW reply s = (s.setTState .addrW, .at (forBytes l))
  nil_step : ∀ reply s, step (forBytes []) reply s = (s, .at next)
  cons_step : ∀ b rest reply s, step (forBytes (b :: rest)) reply s = (s, .at (byte b rest .send))
  byte_step : ∀ b rest p reply s,
    step (byte b rest p) reply s = sendOrFail b p reply (byte b rest) (forBytes rest) fail s

/-- R lets a transfer get past its address byte. -/
def LetsIn (R : BusReply → Bool) : Prop := (∃ r, R r = true ∧ r.start = .ok) ∧ ∃ r, R r = true ∧ r.byte = .ack

namespace WriteHalf

variable {P A : Type} {step : P → Option BusReply → State → State × Flow P A} {R : BusReply → Bool}
  {Q : Nat → A → State → Prop} {m n : Nat} {s : State} {l : List Byte} {fail : A} (w : WriteHalf step l fail)

/-- The loop over bytes, three steps for each byte acknowledged. -/
theorem forBytes_returns {tr : List Event} {x : TState} (rest : List Byte)
    (hsent : ∀ y, BytesRun rest y true → AllowedTrace R y → Returns step R Q (n + 4) w.next (s.afterBus (tr ++ y) x))
    (hfail : ∀ y k, BytesRun rest y false → AllowedTrace R y → n ≤ k → Q k fail (s.afterBus (tr ++ y) .failed)) :
    Returns step R Q (n + 3 * rest.length + 5) (w.forBytes rest) (s.afterBus tr x) := by
  induction rest generalizing tr with
  | nil =>
    refine .stay (fun _ => w.nil_step ..) ?_
    simpa using hsent [] .done allowedTrace_nil
  | cons b rest ih =>
    refine .stay (n := n + 3 * rest.length + 3 + 4) (fun _ => w.cons_step ..) ?_
    refine sendOrFail_returns (fun p reply tr x => w.byte_step b rest p reply _) (fun _ hb => ih ?_ ?_) ?_
    · intro y hy hR
      rw [List.append_assoc]
      exact hsent _ (.sent .ack hy) (allowedTrace_cons.2 ⟨hb, hR⟩)
    · intro y k hy hR hk
      rw [List.append_assoc]
      exact hfail _ k (.sent .ack hy) (allowedTrace_cons.2 ⟨hb, hR⟩) hk
    · intro y k hy hR hk
      exact hfail y k (.fail hy) hR (by omega)

/-- Start, the address byte, and the bytes once it is acknowledged; the five steps are those of an address byte that is lost. -/
theorem returns {d : Nat} (hm : n + 5 ≤ m) (hin : LetsIn R → n + d + 3 * l.length + 9 ≤ m)
    (hheld : (Event.start .held).Allowed R → Q (m - 1) fail (s.afterBus [.start .held] .failed))
    (hfail : ∀ y k, BytesRun (addrByte s.devAddr false :: l) y false → AllowedTrace R (.start .ok :: y) → n ≤ k →
      Q k fail (s.afterBus (.start .ok :: y) .failed))
    (hsent : ∀ y k, BytesRun (addrByte s.devAddr false :: l) y true → AllowedTrace R (.start .ok :: y) → n + d + 4 ≤ k →
      Returns step R Q k w.next (s.afterBus (.start .ok :: y) .addrW)) :
    Returns step R Q m w.start s := by
  obtain ⟨m, rfl⟩ := Nat.exists_eq_add_of_le' (show 5 ≤ m by omega)
  intro r hr
  have hstate : s.answered .start r = s.afterBus [.start r.start] s.tstate := rfl
  have hevent : (Event.start r.start).Allowed R := Event.allowed_event hr .start
  rw [w.start_step, startTransfer, onBus_some, hstate]
  cases hstart : r.start <;> rw [hstart] at hevent
  case held => exact hheld hevent
  case ok =>
    refine sendOrFail_returns (n := m) (fun p reply tr x => w.addr_step p reply _) (fun hack ha => ?_) fun y k hy hR hk =>
      hfail y k (.fail hy) (allowedTrace_cons.2 ⟨hevent, hR⟩) (by omega)
    obtain ⟨j, rfl⟩ : ∃ j, m = j + n + d + 3 * l.length + 4 :=
      ⟨m - (n + d + 3 * l.length + 4), by have := hin ⟨⟨r, hr, hstart⟩, hack⟩; omega⟩
    refine .stay (t := s.afterBus _ .addrW) (fun _ => w.setAddrW_step ..) (w.forBytes_returns (n := j + n + d) l ?_ ?_)
    · intro y hy hR
      exact hsent _ _ (.sent .ack hy) (allowedTrace_cons.2 ⟨hevent, allowedTrace_cons.2 ⟨ha, hR⟩⟩) (by omega)
    · intro y k hy hR hk
      exact hfail _ k (.sent .ack hy) (allowedTrace_cons.2 ⟨hevent, allowedTrace_cons.2 ⟨ha, hR⟩⟩) (by omega)

end WriteHalf

/-! ## `BusWrite`, `BusRead` and `Resync` (42_bus R163 to R165) -/

/-- `BusWrite`'s lines up to its last byte. -/
def busWriteHalf (wa : Half) (payload : List Byte) : WriteHalf (busWriteStep wa payload) (be16 wa ++ payload) false where
  start := .start
  addr := .addr
  setAddrW := .setAddrW
  forBytes := .forBytes
  byte := .byte
  next := .setDataSent
  start_step _ _ := rfl
  addr_step _ _ _ := rfl
  setAddrW_step _ _ := rfl
  nil_step _ _ := rfl
  cons_step _ _ _ _ := rfl
  byte_step _ _ _ _ _ := rfl

/-- `BusRead`'s lines up to the last byte of the word address. -/
def busReadHalf (wa : Half) (n : Nat) : WriteHalf (busReadStep wa n) (be16 wa) none where
  start := .start
  addr := .addrW
  setAddrW := .setAddrW
  forBytes := .forBytes
  byte := .byte
  next := .setDataSent
  start_step _ _ := rfl
  addr_step _ _ _ := rfl
  setAddrW_step _ _ := rfl
  nil_step _ _ := rfl
  cons_step _ _ _ _ := rfl
  byte_step _ _ _ _ _ := rfl

section
variable {R : BusReply → Bool} {m n : Nat} {s : State} {wa : Half}

/-- `BusWrite` returns by one of its traces: within five steps when it does not get past the address byte. -/
theorem busWrite_returns {payload : List Byte} {Q : Nat → Bool → State → Prop} (hm : n + 5 ≤ m)
    (hin : LetsIn R → n + 3 * payload.length + 17 ≤ m)
    (hQ : ∀ tr ok k, WriteRuns s.devAddr wa payload tr ok → AllowedTrace R tr → n + ok.toNat ≤ k →
      Q k ok (s.afterBus tr (if ok then .idle else .failed))) :
    Returns (busWriteStep wa payload) R Q m .start s := by
  refine (busWriteHalf wa payload).returns (n := n) (d := 2) hm ?_ ?_ ?_ ?_
  · intro h
    have := hin h
    simp only [List.length_append, be16_length]
    omega
  · exact fun hheld => hQ _ false _ .held (allowedTrace_singleton hheld) (by simp; omega)
  · exact fun y k hy hR hk => hQ _ false k (.fail hy) hR hk
  · intro y k hy hR hk
    obtain ⟨k, rfl⟩ := Nat.exists_eq_add_of_le' (show 5 ≤ k by omega)
    refine .stay (t := s.afterBus _ .dataSent) (p' := .stop) (fun _ => rfl) ?_
    refine .bus (a := .stop) (next := fun _ => .setStopSent) (fun _ => rfl) fun r hr => ?_
    refine .stay (t := s.afterBus _ .stopSent) (p' := .setIdle) (fun _ => rfl) ?_
    refine .stay (t := s.afterBus _ .idle) (p' := .retOk) (fun _ => rfl) (.ret (fun _ => rfl) ?_)
    have hstop := allowedTrace_append.2 ⟨hR, allowedTrace_singleton (Event.allowed_event hr .stop)⟩
    exact hQ _ true k (.done hy) hstop (by simp; omega)

/-- The lines of `BusRead` after the read address byte: as many bytes as asked for, or not (42_bus R167). -/
theorem busRead_returns_of_setAddrR {Q : Nat → Option (List Byte) → State → Prop} {z : List Event} {x : TState}
    (hlen : ∀ v, v.length = n → AllowedTrace R [.rdbytes n v, .stop] →
      Q m (some v) (s.afterBus (z ++ [.rdbytes n v, .stop]) .idle))
    (hwrong : ∀ v, v.length ≠ n → AllowedTrace R [.rdbytes n v, .stop] →
      Q (m + 4) none (s.afterBus (z ++ [.rdbytes n v, .stop]) .failed)) :
    Returns (busReadStep wa n) R Q (m + 7) .setAddrR (s.afterBus z x) := by
  refine .stay (t := s.afterBus z .addrR) (p' := .rdbytes) (fun _ => rfl) ?_
  refine .bus (a := .rdbytes n) (next := fun r => .lenCheck r.data) (fun _ => rfl) fun r hr => ?_
  have hallowed : ∀ r', R r' = true → AllowedTrace R [.rdbytes n r.data, .stop] := fun r' hr' =>
    allowedTrace_pair (Event.allowed_event hr (.rdbytes n)) (Event.allowed_event hr' .stop)
  by_cases hdata : r.data.length = n
  · refine .stay (p' := .setDataReceived r.data) (fun _ => if_neg (not_not_intro hdata)) ?_
    refine .stay (t := s.afterBus _ .dataReceived) (p' := .stop r.data) (fun _ => rfl) ?_
    refine .bus (a := .stop) (next := fun _ => .setIdle r.data) (fun _ => rfl) fun r' hr' => ?_
    refine .stay (t := s.afterBus _ .idle) (p' := .retOk r.data) (fun _ => rfl) (.ret (fun _ => rfl) ?_)
    rw [List.append_assoc]
    exact hlen r.data hdata (hallowed r' hr')
  · refine .bus_ret (a := .stop) (y := .failed) (fun _ => if_pos hdata) fun r' hr' => ?_
    rw [List.append_assoc]
    exact hwrong r.data hdata (hallowed r' hr')

/-- `BusRead` of n bytes returns by one of its traces. -/
theorem busRead_returns {Q : Nat → Option (List Byte) → State → Prop}
    (hQ : ∀ tr v k, ReadRuns s.devAddr wa n tr v → AllowedTrace R tr → m ≤ k →
      Q k v (s.afterBus tr (if v.isSome then .idle else .failed))) :
    Returns (busReadStep wa n) R Q (m + 23) .start s := by
  refine (busReadHalf wa n).returns (n := m) (d := 8) (by omega) (fun _ => ?_) ?_ ?_ ?_
  · simp only [be16_length]
    omega
  · exact fun hheld => hQ _ none _ .held (allowedTrace_singleton hheld) (by omega)
  · exact fun x k hx hR hk => hQ _ none k (.fail hx) hR hk
  intro x k hx hR hk
  obtain ⟨k, rfl⟩ := Nat.exists_eq_add_of_le' (show 12 ≤ k by omega)
  refine .stay (t := s.afterBus _ .dataSent) (p' := .setRstartPending) (fun _ => rfl) ?_
  refine .stay (t := s.afterBus _ .rstartPending) (p' := .rstart) (fun _ => rfl) fun r hr => ?_
  have hevent : (Event.rstart r.rstart).Allowed R := Event.allowed_event hr .rstart
  have hstate : (s.afterBus (.start .ok :: x) .rstartPending).answered .rstart r =
      s.afterBus (.start .ok :: x ++ [.rstart r.rstart]) .rstartPending := State.afterBus_answered ..
  rw [busReadStep, onBus_some, hstate]
  cases hrstart : r.rstart <;> rw [hrstart] at hevent
  case lost =>
    exact hQ _ none _ (.rstartLost hx) (allowedTrace_append.2 ⟨hR, allowedTrace_singleton hevent⟩) (by omega)
  case ok =>
    have hgranted : ∀ y, AllowedTrace R y → AllowedTrace R (.start .ok :: x ++ .rstart .ok :: y) := fun y hy =>
      allowedTrace_append.2 ⟨hR, allowedTrace_cons.2 ⟨hevent, hy⟩⟩
    refine sendOrFail_returns (n := k + 5) (b := addrByte s.devAddr true) (inside := ReadPos.addrR) (sent := .setAddrR)
      (fail := none) (fun _ _ _ _ => rfl) (fun _ hb => ?_) fun y j hy hyR hj => ?_
    · have hsent := hgranted _ (allowedTrace_singleton hb)
      simp only [List.append_assoc, List.singleton_append]
      refine busRead_returns_of_setAddrR (fun v hv hvR => ?_) fun v hv hvR => ?_
      · exact hQ _ (some v) _ (.done hx .ack hv) (allowedTrace_append.2 ⟨hsent, hvR⟩) (by omega)
      · exact hQ _ none _ (.wrongLength hx .ack hv) (allowedTrace_append.2 ⟨hsent, hvR⟩) (by omega)
    · rw [List.append_assoc]
      exact hQ _ none j (.readAddrFail hx hy) (hgranted y hyR) (by omega)

/-- A granted Start in `Resync`: the dummy byte and STOP, and TSTATE is IDLE. -/
theorem resync_returns_of_granted {Q : Nat → Bool → State → Prop} {z : List Event} {x : TState}
    (h : AllowedTrace R [.dummy 0xFF#8, .stop] → Q m true (s.afterBus (z ++ [.dummy 0xFF#8, .stop]) .idle)) :
    Returns resyncStep R Q (m + 4) .dummy (s.afterBus z x) := by
  refine .bus (a := .dummy 0xFF#8) (next := fun _ => .stop) (fun _ => rfl) fun r hr => ?_
  refine .bus (a := .stop) (next := fun _ => .setIdle) (fun _ => rfl) fun r' hr' => ?_
  refine .stay (t := s.afterBus _ .idle) (p' := .retOk) (fun _ => rfl) (.ret (fun _ => rfl) ?_)
  rw [List.append_assoc]
  exact h (allowedTrace_pair (Event.allowed_event hr (.dummy 0xFF#8)) (Event.allowed_event hr' .stop))

/-- `Resync` returns by one of its traces. -/
theorem resync_returns {Q : Nat → Bool → State → Prop}
    (hQ : ∀ tr ok k, ResyncRuns tr ok → AllowedTrace R tr → m ≤ k → Q k ok (s.afterBus tr (resyncTState ok))) :
    Returns resyncStep R Q (m + 6) .start s := by
  intro r hr
  have hevent : (Event.start r.start).Allowed R := Event.allowed_event hr .start
  have hstate : s.answered .start r = s.afterBus [.start r.start] s.tstate := rfl
  rw [resyncStep, onBus_some, hstate]
  cases hstart : r.start <;> rw [hstart] at hevent
  case ok =>
    exact resync_returns_of_granted fun h => hQ _ true (m + 1) .ok (allowedTrace_cons.2 ⟨hevent, h⟩) (by omega)
  case held =>
    intro r' hr'
    have hevent' : (Event.start r'.start).Allowed R := Event.allowed_event hr' .start
    have hstate' : (s.afterBus [.start .held] s.tstate).answered .start r' =
        s.afterBus [.start .held, .start r'.start] s.tstate := State.afterBus_answered ..
    rw [resyncStep, onBus_some, hstate']
    cases hstart' : r'.start <;> rw [hstart'] at hevent'
    case ok =>
      exact resync_returns_of_granted fun h =>
        hQ _ true m .retried (allowedTrace_cons.2 ⟨hevent, allowedTrace_cons.2 ⟨hevent', h⟩⟩) le_rfl
    case held =>
      refine .stay (t := s.afterBus _ .failed) (p' := .retHeld) (fun _ => rfl) (.ret (fun _ => rfl) ?_)
      exact hQ _ false _ .held (allowedTrace_pair hevent hevent') (by omega)

end

end Sys2Proof.Machine
end

section
/-! How a command that calls a bus primitive ends, when every action is answered and when some moves bring no answer; and BUS_WRITE
from acceptance to completion: what the environment answers decides by which trace of `BusWrite` it ends (42_bus R170). -/

namespace Sys2Proof.Machine

/-! ## The primitives do not look at the sequencer's position -/

/-- A primitive's step with the state updated: the position inside or the answer is the same. -/
def mapState {P R : Type} (g : State → State) (x : State × Flow P R) : State × Flow P R := (g x.1, x.2)

/-- An update that the bus primitives neither see nor undo. -/
structure BusBlind (g : State → State) : Prop where
  devAddr : ∀ s, (g s).devAddr = s.devAddr
  await : ∀ a s, (g s).await a = g (s.await a)
  answered : ∀ a r s, (g s).answered a r = g (s.answered a r)
  setTState : ∀ x s, (g s).setTState x = g (s.setTState x)

theorem busBlind_onLine (q : Seq) (p : Pos) : BusBlind (State.onLine q p) :=
  ⟨fun _ => rfl, fun _ _ => rfl, fun _ _ _ => rfl, fun _ _ => rfl⟩

namespace BusBlind

variable {g : State → State} (hg : BusBlind g) {P R : Type}
include hg

theorem onBus {a : Action} {here : P} {k : BusReply → State → State × Flow P R} (reply : Option BusReply) (s : State)
    (hk : ∀ r t, k r (g t) = mapState g (k r t)) :
    onBus a reply here (g s) k = mapState g (Machine.onBus a reply here s k) := by
  cases reply with
  | none => simp only [onBus_none, hg.await, mapState]
  | some r => simp only [onBus_some, hg.answered, hk]

/-- A line that sets TSTATE. -/
theorem setTState_flow (x : TState) (s : State) (f : Flow P R) : ((g s).setTState x, f) = mapState g (s.setTState x, f) := by
  rw [hg.setTState, mapState]

theorem sendByteStep (b : Byte) (p : SendPos) (reply : Option BusReply) (s : State) :
    sendByteStep b p reply (g s) = mapState g (Machine.sendByteStep b p reply s) := by
  rcases p with _ | a | a | _
  · rw [Machine.sendByteStep, Machine.sendByteStep]
    exact hg.onBus reply s fun _ _ => rfl
  · cases a <;> rfl
  · cases a with
    | nack =>
      rw [Machine.sendByteStep, Machine.sendByteStep]
      exact hg.onBus reply s fun _ t => hg.setTState_flow _ t _
    | ack | lost => rfl
  · exact hg.setTState_flow _ s _

theorem startTransfer (reply : Option BusReply) (here granted : P) (fail : R) (s : State) :
    startTransfer reply here granted fail (g s) = mapState g (Machine.startTransfer reply here granted fail s) :=
  hg.onBus reply s fun r t => by
    cases r.start with
    | ok => rfl
    | held => exact hg.setTState_flow _ t _

theorem sendOrFail (b : Byte) (p : SendPos) (reply : Option BusReply) (inside : SendPos → P) (sent : P) (fail : R) (s : State) :
    sendOrFail b p reply inside sent fail (g s) = mapState g (Machine.sendOrFail b p reply inside sent fail s) := by
  rw [Machine.sendOrFail, Machine.sendOrFail, hg.sendByteStep]
  obtain ⟨t, p' | ok⟩ := Machine.sendByteStep b p reply s <;> rfl

theorem busWriteStep (wa : Half) (payload : List Byte) (p : WritePos) (reply : Option BusReply) (s : State) :
    busWriteStep wa payload p reply (g s) = mapState g (Machine.busWriteStep wa payload p reply s) := by
  cases p with
  | start => exact hg.startTransfer ..
  | addr p =>
    rw [Machine.busWriteStep, hg.devAddr]
    exact hg.sendOrFail ..
  | byte b rest p => exact hg.sendOrFail ..
  | forBytes l => cases l <;> rfl
  | stop =>
    rw [Machine.busWriteStep, Machine.busWriteStep]
    exact hg.onBus reply s fun _ _ => rfl
  | retOk => rfl
  | setAddrW | setDataSent | setStopSent | setIdle => exact hg.setTState_flow _ s _

theorem busReadStep (wa : Half) (n : Nat) (p : ReadPos) (reply : Option BusReply) (s : State) :
    busReadStep wa n p reply (g s) = mapState g (Machine.busReadStep wa n p reply s) := by
  cases p with
  | start => exact hg.startTransfer ..
  | addrW p | addrR p =>
    rw [Machine.busReadStep, hg.devAddr]
    exact hg.sendOrFail ..
  | byte b rest p => exact hg.sendOrFail ..
  | forBytes l => cases l <;> rfl
  | rstart =>
    rw [Machine.busReadStep, Machine.busReadStep]
    refine hg.onBus reply s fun r t => ?_
    cases r.rstart with
    | ok => rfl
    | lost => exact hg.setTState_flow _ t _
  | rdbytes | stop v =>
    rw [Machine.busReadStep, Machine.busReadStep]
    exact hg.onBus reply s fun _ _ => rfl
  | lenCheck v =>
    rw [Machine.busReadStep, Machine.busReadStep]
    split
    · exact hg.onBus reply s fun _ t => hg.setTState_flow _ t _
    · rfl
  | retOk v => rfl
  | setAddrW | setDataSent | setRstartPending | setAddrR | setDataReceived v | setIdle v => exact hg.setTState_flow _ s _

theorem resyncStep (p : ResyncPos) (reply : Option BusReply) (s : State) :
    resyncStep p reply (g s) = mapState g (Machine.resyncStep p reply s) := by
  cases p with
  | start | startAgain =>
    rw [Machine.resyncStep, Machine.resyncStep]
    exact hg.onBus reply s fun r _ => by cases r.start <;> rfl
  | dummy | stop =>
    rw [Machine.resyncStep, Machine.resyncStep]
    exact hg.onBus reply s fun _ _ => rfl
  | retHeld | retOk => rfl
  | setFailed | setIdle => exact hg.setTState_flow _ s _

end BusBlind

/-! ## A command's line that calls a primitive -/

/-- Where such a line leads: to its line inside, or on by k with the primitive's answer. -/
def resume {P A : Type} (q : Seq) (inside : P → Pos) (k : A → State → State) : State × Flow P A → State
  | (t, .at p) => t.onLine q (inside p)
  | (t, .ret a) => k a t

theorem callLine_onLine {P A : Type} {q : Seq} {p : Pos} {inside : P → Pos} {k k' : A → State → State} {x y : State × Flow P A}
    (hy : y = mapState (State.onLine q p) x) (hk : ∀ a t, k' a (t.onLine q p) = k a t) :
    callLine y inside k' = resume q inside k x := by
  subst hy
  obtain ⟨t, p' | a⟩ := x
  · rfl
  · exact hk a t

/-- A command that calls a primitive ends as the primitive's returns let it; J is what the calling line reads. -/
theorem EndsIn.call {P A : Type} {step : P → Option BusReply → State → State × Flow P A} {inside : P → Pos}
    {k : A → State → State} {R : BusReply → Bool} {J Q : State → Prop} {n : Nat} {p : P} {s : State} {q : Seq}
    (hinside : ∀ p, inside p ≠ .accepted)
    (hline : ∀ p r t, J t →
      lineStep (inside p) (some r) (t.onLine q (inside p)) = resume q inside k (step p (some r) t))
    (hJ : ∀ p r t, J t → J (step p (some r) t).1) (hs : J s)
    (h : Returns step R (fun m a t => EndsIn (Turn.replies R) m (k a t) Q) n p s) :
    EndsIn (Turn.replies R) n (s.onLine q (inside p)) Q := by
  induction n generalizing p s with
  | zero => exact h.elim
  | succ n ih =>
    refine .step (hinside p) fun x hx => ?_
    cases x with
    | host a => cases hx
    | reset => cases hx
    | ctrl reply => cases reply with
      | none => cases hx
      | some r =>
        refine ⟨some r, rfl, ?_⟩
        have hpost := h r hx
        have hJt := hJ p r s hs
        rw [hline p r s hs]
        generalize step p (some r) s = y at hpost hJt
        obtain ⟨t, p' | a⟩ := y
        · exact ih hJt hpost
        · exact hpost

/-! ## Runs in which some moves bring no answer (42_bus R173) -/

/-- A held action does not change what its line does once it is answered. -/
theorem lineStep_await {s : State} {p : Pos} {a : Action} (h : s.actionAt p = some a) (r : BusReply) :
    lineStep p (some r) (s.await a) = lineStep p (some r) s := by
  obtain ⟨t, -, -, hline⟩ := lineStep_answered h r
  exact (hline (some a)).trans (hline s.pending).symm

section
variable {n : Nat} {s : State} {Q : State → Prop}

/-- With no command running, whatever moves are left. -/
theorem EndsIn.idle (h : EndsIn (Turn.replies fun _ => true) n s Q) (hq : s.seq = none) (ts : List Turn) :
    ∃ t left, State.runTurns ts s = { t with turns := left } ∧ Q t := by
  obtain ⟨t, left, hrun, ht⟩ := h (List.replicate n (.ctrl (some ⟨.ok, .ok, .ack, []⟩))) (by simp [Turn.replies]) (by simp)
  rw [State.runTurns_idle hq] at hrun
  exact ⟨t, ts, by rw [State.runTurns_idle hq]; exact congrArg (fun u : State => { u with turns := ts }) hrun, ht⟩

/-- After a first answer. -/
theorem EndsIn.tail (h : EndsIn (Turn.replies fun _ => true) n s Q) {q : Seq} (hq : s.seq = some q) (hp : q.pos ≠ .accepted)
    (r : BusReply) : EndsIn (Turn.replies fun _ => true) n (lineStep q.pos (some r) s) Q := by
  intro ts hts hlen
  have := h (.ctrl (some r) :: ts) (by simpa [Turn.replies] using hts) (by simp; omega)
  rwa [State.runTurns_ctrl hq hp] at this

/-- Holding the action of its line changes nothing of how a command ends. -/
theorem EndsIn.await {q : Seq} {a : Action} (h : EndsIn (Turn.replies fun _ => true) n s Q) (hq : s.seq = some q)
    (ha : s.actionAt q.pos = some a) : EndsIn (Turn.replies fun _ => true) (n + 1) (s.await a) Q := by
  have hp := State.ne_accepted_of_action ha
  intro ts hts hlen
  cases ts with
  | nil => simp at hlen
  | cons x rest =>
    simp only [List.all_cons, Bool.and_eq_true] at hts
    obtain ⟨hx, hrest⟩ := hts
    cases x with
    | host a => cases hx
    | reset => cases hx
    | ctrl reply => cases reply with
      | none => cases hx
      | some r =>
        rw [State.runTurns_ctrl (s := s.await a) hq hp, lineStep_await ha]
        exact h.tail hq hp r rest hrest (by simpa using hlen)

/-- What holds of every answered run of a command holds of every run that ends it: an unanswered move holds an action, or its line
does not look at the reply. -/
theorem EndsIn.of_completed {i : Instr} {ts : List Turn} (h : EndsIn (Turn.replies fun _ => true) n s Q) (hs : s.Runs i)
    (hts : ts.all Turn.isCtrl = true) (hend : (State.runTurns ts s).seq = none) :
    ∃ t left, State.runTurns ts s = { t with turns := left } ∧ Q t := by
  induction ts generalizing s n with
  | nil => exact h.idle hend []
  | cons x rest ih =>
    simp only [List.all_cons, Bool.and_eq_true] at hts
    obtain ⟨hx, hrest⟩ := hts
    cases x with
    | host a => cases hx
    | reset => cases hx
    | ctrl reply =>
      cases hq : s.seq with
      | none => exact h.idle hq _
      | some q =>
        have hpos := hs q hq
        have hp := hpos.ne_accepted
        have hruns := (lineStep_staysIn hpos reply hs).runs
        rw [State.runTurns_ctrl hq hp] at hend ⊢
        have same : ∀ r, lineStep q.pos (some r) s = lineStep q.pos reply s →
            EndsIn (Turn.replies fun _ => true) n (lineStep q.pos reply s) Q := fun r hr => hr ▸ h.tail hq hp r
        cases reply with
        | some r => exact ih (same r rfl) hruns hrest hend
        | none =>
          cases ha : s.actionAt q.pos with
          | none => exact ih (same ⟨.ok, .ok, .ack, []⟩ (lineStep_internal ha _)) hruns hrest hend
          | some a =>
            rw [lineStep_unanswered (by simp [hq]) ha] at hend hruns ⊢
            exact ih (h.await hq ha) hruns hrest hend

/-- A command at its start that ends over any of the controller's moves. -/
theorem completed_of_endsIn {i : Instr} {t : State} (hstart : s.atStart = true) (hturns : s.turns.all Turn.isCtrl = true)
    (hexec : exec i s = .next t) (hend : t.seq = none)
    (h : ∀ q, EndsIn (Turn.replies fun _ => true) n (s.onLine q (firstLine i)) Q) :
    ∃ u left, t = { u with turns := left } ∧ Q u := by
  obtain ⟨q, hq, hp⟩ := State.atStart_iff.1 hstart
  rw [exec_eq, State.runCommand_atStart hq hp] at hexec
  cases hexec
  have hruns : (s.goto (firstLine i)).Runs i := .goto (firstLine_inRunOf i) s
  rw [State.goto_eq_onLine hq] at hruns hend ⊢
  exact (h q).of_completed hruns hturns hend

end

/-! ## BUS_WRITE (42_bus R170) -/

theorem replies_isCtrl (R : BusReply → Bool) (x : Turn) (h : Turn.replies R x = true) : x.isCtrl = true := by
  cases x with
  | ctrl reply => rfl
  | host a | reset => cases h

section
variable {R : BusReply → Bool} {N : Nat} {s : State} {q : Seq}

/-- What BUS_WRITE leaves when its checks pass. -/
def State.afterWrite (s : State) (tr : List Event) (ok : Bool) : State :=
  (s.afterBus tr (if ok then .idle else .failed)).complete (if ok then .ok else .commFail)

theorem busWriteLine_onLine (p : WritePos) (r : BusReply) {t : State} (ht : BusFrame s t) :
    lineStep (.busWrite (.transfer p)) (some r) (t.onLine q (.busWrite (.transfer p))) =
      resume q (fun p => .busWrite (.transfer p)) (fun ok t => t.onLine q (.busWrite (.result ok)))
        (busWriteStep s.waddr (s.bufSlice .txbuf 0 s.wrLen.toNat) p (some r) t) := by
  obtain ⟨pd, tr, x, rfl⟩ := ht
  exact callLine_onLine ((busBlind_onLine q _).busWriteStep ..) fun _ _ => rfl

/-- BUS_WRITE's transfer and what follows it. -/
theorem busWrite_endsIn_of_transfer (hN : 6 ≤ N) (hin : LetsIn R → 3 * s.wrLen.toNat + 18 ≤ N) :
    EndsIn (Turn.replies R) N (s.onLine q (.busWrite (.transfer .start))) fun t =>
      ∃ tr ok, WriteRuns s.devAddr s.waddr (s.bufSlice .txbuf 0 s.wrLen.toNat) tr ok ∧ AllowedTrace R tr ∧
        t = s.afterWrite tr ok := by
  have hok := replies_isCtrl R
  refine .call (inside := fun p => .busWrite (.transfer p)) (J := BusFrame s) (fun _ => nofun)
    (fun p r _ ht => busWriteLine_onLine p r ht)
    (fun p r t ht => ht.trans (busWriteStep_frame ..)) (.refl s) ?_
  refine busWrite_returns (n := 1) hN (fun h => ?_) fun tr ok k htr hR hk => ?_
  · have := hin h
    rw [State.bufSlice_length]
    omega
  cases ok with
  | false =>
    refine EndsIn.mono (n := 1) (.line hok (p := .busWrite (.result false)) nofun (.complete ?_) fun _ => rfl) hk
    exact ⟨tr, false, htr, hR, rfl⟩
  | true =>
    refine EndsIn.mono (n := 2) (.line hok (p := .busWrite (.result true)) nofun (.completion hok ?_) fun _ => rfl) hk
    exact ⟨tr, true, htr, hR, rfl⟩

/-- BUS_WRITE, its checks passed, ends by a trace of `BusWrite`. -/
theorem busWrite_endsIn (hts : s.tstate ≠ .failed) (hlen : s.wrLen.toNat ≤ s.params.maxCmdSize) (hN : 10 ≤ N)
    (hin : LetsIn R → 3 * s.wrLen.toNat + 25 ≤ N) :
    EndsIn (Turn.replies R) N (s.onLine q (firstLine .busWrite)) fun t =>
      ∃ tr ok, WriteRuns s.devAddr s.waddr (s.bufSlice .txbuf 0 s.wrLen.toNat) tr ok ∧ AllowedTrace R tr ∧
        t = s.afterWrite tr ok := by
  have hok := replies_isCtrl R
  obtain ⟨m, rfl⟩ := Nat.exists_eq_add_of_le' (show 4 ≤ N by omega)
  refine busWrite_endsIn_of_lenCheck hok hts ?_
  refine .line hok nofun (u := (s.setPhase .check).onLine q (.busWrite .setPhase)) ?_ fun _ => if_neg hlen.not_gt
  refine .line hok nofun (u := (s.setPhase .write).onLine q (.busWrite (.transfer .start))) ?_ fun _ => rfl
  exact busWrite_endsIn_of_transfer (s := s.setPhase .write) (by omega) fun h => by
    have := hin h
    simp only [State.setPhase_wrLen]
    omega

end

/-! ## Which traces a kind of answer lets (42_bus R162, R163) -/

section
variable {R : BusReply → Bool} {b : Byte} {l : List Byte} {tr : List Event} {ok : Bool}

/-- With every byte acknowledged, a byte is sent. -/
theorem SendRuns.eq_of_acks (hR : ∀ r, R r = true → r.byte = .ack) (h : SendRuns b tr ok) (htr : AllowedTrace R tr) :
    ok = true ∧ tr = [.wrbyte b .ack] := by
  cases h with
  | ack => exact ⟨rfl, rfl⟩
  | nack | lost =>
    obtain ⟨r, hr, hbyte⟩ := Event.allowed_wrbyte (allowedTrace_cons.1 htr).1
    simp [hR r hr] at hbyte

/-- With every byte acknowledged, every byte is sent. -/
theorem BytesRun.eq_of_acks (hR : ∀ r, R r = true → r.byte = .ack) (h : BytesRun l tr ok) (htr : AllowedTrace R tr) :
    ok = true ∧ tr = l.map fun b => .wrbyte b .ack := by
  induction h with
  | done => exact ⟨rfl, rfl⟩
  | fail hsend => cases (hsend.eq_of_acks hR htr).1
  | sent hsend _ ih =>
    obtain ⟨hx, hy⟩ := allowedTrace_append.1 htr
    obtain ⟨-, rfl⟩ := hsend.eq_of_acks hR hx
    obtain ⟨rfl, rfl⟩ := ih hy
    exact ⟨rfl, rfl⟩

/-- With no byte acknowledged, the first one ends the transfer. -/
theorem BytesRun.fails_of_no_ack (hR : ∀ r, R r = true → r.byte ≠ .ack) (h : BytesRun (b :: l) tr ok)
    (htr : AllowedTrace R tr) : ok = false ∧ SendRuns b tr false := by
  cases h with
  | fail hsend => exact ⟨rfl, hsend⟩
  | sent hsend _ =>
    cases hsend with
    | ack =>
      obtain ⟨r, hr, hbyte⟩ := Event.allowed_wrbyte (allowedTrace_cons.1 htr).1
      exact absurd hbyte (hR r hr)

end

section
variable {R : BusReply → Bool} {d : BitVec 7} {wa : Half} {payload : List Byte} {tr : List Event} {ok : Bool}

/-- The start of a write transfer is answered as R allows. -/
theorem WriteRuns.start (h : WriteRuns d wa payload tr ok) (htr : AllowedTrace R tr) (hR : ∀ r, R r = true → r.start = .ok) :
    ∃ x, AllowedTrace R x ∧ BytesRun (addrByte d false :: be16 wa ++ payload) x ok ∧
      tr = .start .ok :: x ++ if ok then [.stop] else [] := by
  cases h with
  | held =>
    obtain ⟨r, hr, hstart⟩ := Event.allowed_start (allowedTrace_cons.1 htr).1
    simp [hR r hr] at hstart
  | fail hx => exact ⟨_, (allowedTrace_cons.1 htr).2, hx, by simp⟩
  | done hx => exact ⟨_, (allowedTrace_append.1 (allowedTrace_cons.1 htr).2).1, hx, by simp⟩

theorem WriteRuns.eq_of_grants (h : WriteRuns d wa payload tr ok) (htr : AllowedTrace BusReply.grants tr) :
    ok = true ∧ tr = writeTrace d wa payload := by
  obtain ⟨x, hx, hbytes, rfl⟩ := h.start htr fun r hr => by simp_all [BusReply.grants]
  obtain ⟨rfl, rfl⟩ := hbytes.eq_of_acks (fun r hr => by simp_all [BusReply.grants]) hx
  exact ⟨rfl, by simp [writeTrace]⟩

/-- With no byte acknowledged, the address byte ends the transfer. -/
theorem WriteRuns.fails_of_no_ack (h : WriteRuns d wa payload tr ok) (htr : AllowedTrace R tr)
    (hR : ∀ r, R r = true → r.start = .ok ∧ r.byte ≠ .ack) :
    ok = false ∧ ∃ x, AllowedTrace R x ∧ SendRuns (addrByte d false) x false ∧ tr = .start .ok :: x := by
  obtain ⟨x, hx, hbytes, rfl⟩ := h.start htr fun r hr => (hR r hr).1
  obtain ⟨rfl, hsend⟩ := hbytes.fails_of_no_ack (fun r hr => (hR r hr).2) hx
  exact ⟨rfl, x, hx, hsend, by simp⟩

theorem WriteRuns.eq_of_nacks (h : WriteRuns d wa payload tr ok) (htr : AllowedTrace BusReply.nacks tr) :
    ok = false ∧ tr = nackTrace d := by
  obtain ⟨rfl, x, hx, hsend, rfl⟩ := h.fails_of_no_ack htr fun r hr => by simp_all [BusReply.nacks]
  cases hsend with
  | nack => exact ⟨rfl, rfl⟩
  | lost =>
    obtain ⟨r, hr, hbyte⟩ := Event.allowed_wrbyte (allowedTrace_cons.1 hx).1
    simp [BusReply.nacks, hbyte] at hr

theorem WriteRuns.eq_of_steals (h : WriteRuns d wa payload tr ok) (htr : AllowedTrace BusReply.steals tr) :
    ok = false ∧ tr = [.start .ok, .wrbyte (addrByte d false) .lost] := by
  obtain ⟨rfl, x, hx, hsend, rfl⟩ := h.fails_of_no_ack htr fun r hr => by simp_all [BusReply.steals]
  cases hsend with
  | lost => exact ⟨rfl, rfl⟩
  | nack =>
    obtain ⟨r, hr, hbyte⟩ := Event.allowed_wrbyte (allowedTrace_cons.1 hx).1
    simp [BusReply.steals, hbyte] at hr

theorem WriteRuns.eq_of_holds (h : WriteRuns d wa payload tr ok) (htr : AllowedTrace BusReply.holds tr) :
    ok = false ∧ tr = [.start .held] := by
  cases h with
  | held => exact ⟨rfl, rfl⟩
  | fail _ | done _ =>
    obtain ⟨r, hr, hstart⟩ := Event.allowed_start (allowedTrace_cons.1 htr).1
    simp [BusReply.holds, hstart] at hr

end

/-- Settles O21: with every Start granted and every byte acknowledged one trace of `BusWrite` is left. -/
theorem busWriteSendsThePayload : Obligations.BusWriteSendsThePayload := by
  intro s hstart hidle hlen hturns hN
  obtain ⟨_, left, hrun, tr, ok, htr, hR, rfl⟩ := exec_of_endsIn hstart hturns hN fun q =>
    busWrite_endsIn (q := q) (by simp [hidle]) hlen (by omega) fun _ => by omega
  obtain ⟨rfl, rfl⟩ := htr.eq_of_grants hR
  exact ⟨_, hrun, by simp [State.afterWrite, State.afterBus, State.complete, hidle]⟩

/-- Settles O22: each kind of answer leaves one trace of `BusWrite`, and any answers leave one of them. -/
theorem busWriteFailsOnNackLostAndHeld : Obligations.BusWriteFailsOnNackLostAndHeld := by
  refine ⟨fun s hstart hidle hlen hN R sent hsent hturns => ?_, fun s t hstart hidle hlen hturns hexec hend => ?_⟩
  · have hts : s.tstate ≠ .failed := by simp [hidle]
    have fails : ¬ LetsIn R ∧ ∀ tr ok, WriteRuns s.devAddr s.waddr (s.bufSlice .txbuf 0 s.wrLen.toNat) tr ok →
        AllowedTrace R tr → ok = false ∧ tr = sent := by
      simp only [List.mem_cons, Prod.mk.injEq, List.not_mem_nil, or_false] at hsent
      obtain ⟨rfl, rfl⟩ | ⟨rfl, rfl⟩ | ⟨rfl, rfl⟩ := hsent
      · exact ⟨fun ⟨_, r, hr, hbyte⟩ => by simp_all [BusReply.nacks], fun _ _ h hR => h.eq_of_nacks hR⟩
      · exact ⟨fun ⟨_, r, hr, hbyte⟩ => by simp_all [BusReply.steals], fun _ _ h hR => h.eq_of_steals hR⟩
      · exact ⟨fun ⟨⟨r, hr, hstart⟩, _⟩ => by simp_all [BusReply.holds], fun _ _ h hR => h.eq_of_holds hR⟩
    obtain ⟨_, left, hrun, tr, ok, htr, hR, rfl⟩ := exec_of_endsIn hstart hturns hN fun q =>
      busWrite_endsIn (q := q) hts hlen le_rfl fun h => absurd h fails.1
    obtain ⟨rfl, rfl⟩ := fails.2 tr ok htr hR
    exact ⟨_, hrun, rfl⟩
  · obtain ⟨_, left, rfl, tr, ok, htr, -, rfl⟩ := completed_of_endsIn hstart hturns hexec hend fun q =>
      busWrite_endsIn (N := 3 * s.wrLen.toNat + 25) (q := q) (by simp [hidle]) hlen (by omega) fun _ => le_rfl
    exact ⟨tr, ok, htr, by cases ok <;> rfl⟩

end Sys2Proof.Machine
end

section
/-! BUS_READ and RESYNC from acceptance to completion (42_bus R171, R172). -/

namespace Sys2Proof.Machine

/-! ## RESYNC (42_bus R172) -/

section
variable {R : BusReply → Bool} {N : Nat} {s : State} {q : Seq}

/-- What RESYNC leaves. -/
def State.afterResync (s : State) (tr : List Event) (ok : Bool) : State :=
  (s.afterBus tr (resyncTState ok)).complete (if ok then .ok else .resyncFail)

theorem resyncLine_onLine (p : ResyncPos) (r : BusReply) (t : State) :
    lineStep (.resync (.run p)) (some r) (t.onLine q (.resync (.run p))) =
      resume q (fun p => .resync (.run p)) (fun ok t => if ok then t.onLine q (.complete .ok) else t.complete .resyncFail)
        (resyncStep p (some r) t) :=
  callLine_onLine ((busBlind_onLine q _).resyncStep ..) fun ok _ => by cases ok <;> rfl

/-- RESYNC ends by a trace of `Resync`. -/
theorem resync_endsIn : EndsIn (Turn.replies R) 8 (s.onLine q (firstLine .resync)) fun t =>
    ∃ tr ok, ResyncRuns tr ok ∧ AllowedTrace R tr ∧ t = s.afterResync tr ok := by
  have hok := replies_isCtrl R
  refine .line hok nofun (u := (s.setPhase .resync).onLine q (.resync (.run .start))) ?_ fun _ => rfl
  refine .call (inside := fun p => .resync (.run p)) (J := fun _ => True) (fun _ => nofun)
    (fun p r t _ => resyncLine_onLine p r t) (fun _ _ _ _ => trivial) trivial ?_
  refine resync_returns (m := 1) fun tr ok k htr hR hk => ?_
  cases ok with
  | false => exact .complete ⟨tr, false, htr, hR, rfl⟩
  | true => exact EndsIn.mono (.completion hok ⟨tr, true, htr, hR, rfl⟩) hk

end

theorem ResyncRuns.eq_of_grants {tr : List Event} {ok : Bool} (h : ResyncRuns tr ok) (htr : AllowedTrace BusReply.grants tr) :
    ok = true ∧ tr = resyncTrace := by
  cases h with
  | ok => exact ⟨rfl, rfl⟩
  | retried | held =>
    obtain ⟨r, hr, hstart⟩ := Event.allowed_start (allowedTrace_cons.1 htr).1
    simp [BusReply.grants, hstart] at hr

theorem ResyncRuns.eq_of_holds {tr : List Event} {ok : Bool} (h : ResyncRuns tr ok) (htr : AllowedTrace BusReply.holds tr) :
    ok = false ∧ tr = [.start .held, .start .held] := by
  cases h with
  | held => exact ⟨rfl, rfl⟩
  | ok =>
    obtain ⟨r, hr, hstart⟩ := Event.allowed_start (allowedTrace_cons.1 htr).1
    simp [BusReply.holds, hstart] at hr
  | retried =>
    obtain ⟨r, hr, hstart⟩ := Event.allowed_start (allowedTrace_cons.1 (allowedTrace_cons.1 htr).2).1
    simp [BusReply.holds, hstart] at hr

/-- Settles O26: each kind of answer leaves one trace of `Resync`, and any answers leave one of them. -/
theorem resyncFreesTheBusOrFails : Obligations.ResyncFreesTheBusOrFails := by
  refine ⟨fun s hstart hlen => ⟨fun hturns => ?granted, fun hturns => ?held⟩, fun s t hstart hturns hexec hend => ?any⟩
  case granted =>
    obtain ⟨_, left, hrun, tr, ok, htr, hR, rfl⟩ := exec_of_endsIn hstart hturns hlen fun q => resync_endsIn (q := q)
    obtain ⟨rfl, rfl⟩ := htr.eq_of_grants hR
    exact ⟨_, hrun, rfl⟩
  case held =>
    obtain ⟨_, left, hrun, tr, ok, htr, hR, rfl⟩ := exec_of_endsIn hstart hturns hlen fun q => resync_endsIn (q := q)
    obtain ⟨rfl, rfl⟩ := htr.eq_of_holds hR
    exact ⟨_, hrun, rfl⟩
  case any =>
    obtain ⟨_, left, rfl, tr, ok, htr, -, rfl⟩ := completed_of_endsIn hstart hturns hexec hend fun q => resync_endsIn (q := q)
    exact ⟨tr, ok, htr, rfl⟩

/-! ## BUS_READ (42_bus R171) -/

section
variable {R : BusReply → Bool} {s : State} {q : Seq}

/-- What BUS_READ leaves when its checks pass: the bytes in RXBUF and their number in RX_LEN, or an RX_LEN of 0. -/
def State.afterRead (s : State) (tr : List Event) : Option (List Byte) → State
  | some v => ((((s.afterBus tr .idle).setBufBytes .rxbuf 0 v).setRxLen s.rdLen.toNat).complete .ok)
  | none => ((s.afterBus tr .failed).setRxLen 0).complete .commFail

theorem busReadLine_onLine (p : ReadPos) (r : BusReply) {n : Nat} {t : State} (ht : BusFrame s t) :
    lineStep (.busRead (.transfer n p)) (some r) (t.onLine q (.busRead (.transfer n p))) =
      resume q (fun p => .busRead (.transfer n p)) (fun v t => t.onLine q (.busRead (.result n v)))
        (busReadStep s.waddr n p (some r) t) := by
  obtain ⟨pd, tr, x, rfl⟩ := ht
  exact callLine_onLine ((busBlind_onLine q _).busReadStep ..) fun _ _ => rfl

theorem State.setBufBytes_onLine (b : Buf) (a : Nat) (v : List Byte) (p : Pos) (s : State) :
    (s.onLine q p).setBufBytes b a v = (s.setBufBytes b a v).onLine q p := by
  refine State.setBufBytes_comm (g := State.onLine q p) (fun s i x => ?_) a v s
  rw [State.setBufByte_eq, State.setBufByte_eq]
  rfl

/-- PHASE does not enter the state that completion leaves. -/
theorem State.setPhase_afterRead (p : Phase) (s : State) (tr : List Event) (v : Option (List Byte)) :
    (s.setPhase p).afterRead tr v = s.afterRead tr v := by
  cases v with
  | none => rfl
  | some v =>
    have hstore : ((s.afterBus tr .idle).setPhase p).setBufBytes .rxbuf 0 v =
        ((s.afterBus tr .idle).setBufBytes .rxbuf 0 v).setPhase p := by
      refine State.setBufBytes_comm (g := State.setPhase p) (fun s i x => ?_) 0 v _
      rw [State.setBufByte_eq, State.setBufByte_eq]
      rfl
    exact (congrArg (fun t : State => (t.setRxLen s.rdLen.toNat).complete .ok) hstore).trans rfl

/-- BUS_READ's lines after the transfer, with its bytes. -/
theorem busRead_endsIn_of_some {n : Nat} {v : List Byte} {Q : State → Prop}
    (h : Q (((s.setBufBytes .rxbuf 0 v).setRxLen n).complete .ok)) :
    EndsIn (Turn.replies R) 5 (s.onLine q (.busRead (.result n (some v)))) Q := by
  have hok := replies_isCtrl R
  refine .line hok nofun (u := s.onLine q (.busRead (.bind n v))) ?_ fun _ => rfl
  refine .line hok nofun (u := s.onLine q (.busRead (.store n v))) ?_ fun _ => rfl
  refine .line hok nofun (u := (s.setBufBytes .rxbuf 0 v).onLine q (.busRead (.setLen n))) ?_ fun _ => ?_
  · exact .line hok nofun (u := ((s.setBufBytes .rxbuf 0 v).setRxLen n).onLine q (.complete .ok)) (.completion hok h) fun _ => rfl
  · rw [lineStep, busReadLine, State.setBufBytes_onLine]
    rfl

/-- BUS_READ's lines after a transfer that failed. -/
theorem busRead_endsIn_of_none {n : Nat} {Q : State → Prop} (h : Q ((s.setRxLen 0).complete .commFail)) :
    EndsIn (Turn.replies R) 3 (s.onLine q (.busRead (.result n none))) Q := by
  have hok := replies_isCtrl R
  refine .line hok nofun (u := s.onLine q (.busRead .clearLen)) ?_ fun _ => rfl
  exact .line hok nofun (u := (s.setRxLen 0).onLine q (.complete .commFail)) (.completion hok h) fun _ => rfl

/-- BUS_READ, its checks passed, ends by a trace of `BusRead`. -/
theorem busRead_endsIn (hts : s.tstate ≠ .failed) (hmin : 1 ≤ s.rdLen.toNat) (hmax : s.rdLen.toNat ≤ s.params.rxBufSize) :
    EndsIn (Turn.replies R) 33 (s.onLine q (firstLine .busRead)) fun t =>
      ∃ tr v, ReadRuns s.devAddr s.waddr s.rdLen.toNat tr v ∧ AllowedTrace R tr ∧ t = s.afterRead tr v := by
  have hok := replies_isCtrl R
  have hlen : ¬(s.rdLen.toNat < 1 ∨ s.params.rxBufSize < s.rdLen.toNat) := by omega
  refine busRead_endsIn_of_lenCheck hok hts ?_
  refine .line hok nofun (u := (s.setPhase .check).onLine q (.busRead .setPhase)) ?_ fun _ => if_neg hlen
  refine .line hok nofun (u := (s.setPhase .read).onLine q (.busRead .getLen)) ?_ fun _ => rfl
  refine .line hok nofun (u := (s.setPhase .read).onLine q (.busRead (.transfer s.rdLen.toNat .start))) ?_ fun _ => rfl
  refine .call (inside := fun p => .busRead (.transfer s.rdLen.toNat p)) (J := BusFrame (s.setPhase .read)) (fun _ => nofun)
    (fun p r _ ht => busReadLine_onLine p r ht) (fun p r t ht => ht.trans (busReadStep_frame ..)) (.refl _) ?_
  refine busRead_returns (m := 5) fun tr v k htr hR hk => ?_
  cases v with
  | none => exact (busRead_endsIn_of_none ⟨tr, none, htr, hR, rfl⟩).mono (by omega)
  | some v => exact (busRead_endsIn_of_some ⟨tr, some v, htr, hR, s.setPhase_afterRead .read tr (some v)⟩).mono hk

end

/-- The bytes of an answered read are stored, and nothing but what the rule lists is changed. -/
theorem State.afterRead_some {s : State} {tr : List Event} {v : List Byte} (hv : v.length = s.rdLen.toNat)
    (hmax : s.rdLen.toNat ≤ s.params.rxBufSize) (left : List Turn) :
    StoresAt s { s.afterRead tr (some v) with turns := left } .rxbuf 0 v ∧
      { s.afterRead tr (some v) with turns := left } = { s with
        turns := left, mem := (s.afterRead tr (some v)).mem, pending := none, trace := s.trace ++ tr, rxLen := s.rdLen,
        tstate := .idle, result := .ok, phase := .idle, busy := false, done := true, seq := none } := by
  have hfits : 0 + v.length ≤ Buf.rxbuf.size s.params := by simpa [Buf.size, hv] using hmax
  refine ⟨State.setBufBytes_storesAt (s := s.afterBus tr .idle) hfits, ?_⟩
  simp [State.afterRead, State.afterBus, State.setRxLen, State.complete]

/-- With everything granted and acknowledged and v delivered, one trace of `BusRead` is left; its answer is v when v has the length
asked for (42_bus R167). -/
theorem ReadRuns.eq_of_delivers {d : BitVec 7} {wa : Half} {n : Nat} {tr : List Event} {r : Option (List Byte)} {v : List Byte}
    (h : ReadRuns d wa n tr r) (htr : AllowedTrace (BusReply.delivers v) tr) :
    tr = readTrace d wa n v ∧ r = if v.length = n then some v else none := by
  have acks : ∀ r, BusReply.delivers v r = true → r.byte = .ack := fun r hr => by simp_all [BusReply.delivers, BusReply.grants]
  have delivered : ∀ {x y w}, BytesRun (addrByte d false :: be16 wa) x true → SendRuns (addrByte d true) y true →
      AllowedTrace (BusReply.delivers v) (.start .ok :: x ++ .rstart .ok :: y ++ [.rdbytes n w, .stop]) →
      w = v ∧ .start .ok :: x ++ .rstart .ok :: y ++ [.rdbytes n w, .stop] = readTrace d wa n w := by
    intro x y w hx hy htr
    simp only [List.cons_append, allowedTrace_cons, allowedTrace_append] at htr
    obtain ⟨-, ⟨hxR, -, hyR⟩, hdata, -⟩ := htr
    obtain ⟨r, hr, rfl⟩ := Event.allowed_rdbytes hdata
    obtain ⟨-, rfl⟩ := hx.eq_of_acks acks hxR
    obtain ⟨-, rfl⟩ := hy.eq_of_acks acks hyR
    exact ⟨by simp_all [BusReply.delivers], by simp [readTrace]⟩
  cases h with
  | done hx hy hlen =>
    obtain ⟨rfl, heq⟩ := delivered hx hy htr
    exact ⟨heq, (if_pos hlen).symm⟩
  | wrongLength hx hy hlen =>
    obtain ⟨rfl, heq⟩ := delivered hx hy htr
    exact ⟨heq, (if_neg hlen).symm⟩
  | held =>
    obtain ⟨r, hr, hstart⟩ := Event.allowed_start (allowedTrace_cons.1 htr).1
    simp [BusReply.delivers, BusReply.grants, hstart] at hr
  | fail hx => cases (hx.eq_of_acks acks (allowedTrace_cons.1 htr).2).1
  | rstartLost hx =>
    obtain ⟨r, hr, hrstart⟩ := Event.allowed_rstart (allowedTrace_cons.1 (allowedTrace_append.1 htr).2).1
    simp [BusReply.delivers, BusReply.grants, hrstart] at hr
  | readAddrFail hx hy =>
    cases (hy.eq_of_acks acks (allowedTrace_cons.1 (allowedTrace_append.1 htr).2).2).1

/-- Settles O23: with exactly RD_LEN bytes delivered one trace of `BusRead` is left. -/
theorem busReadStoresTheDeliveredBytes : Obligations.BusReadStoresTheDeliveredBytes := by
  intro s v hstart hidle hv hmin hmax hturns hlen
  obtain ⟨_, left, hrun, tr, r, htr, hR, rfl⟩ := exec_of_endsIn hstart hturns (show 33 ≤ _ by omega) fun q =>
    busRead_endsIn (q := q) (by simp [hidle]) hmin hmax
  obtain ⟨rfl, rfl⟩ := htr.eq_of_delivers hR
  rw [if_pos hv] at hrun
  obtain ⟨hstores, heq⟩ := State.afterRead_some hv hmax left
  exact ⟨_, hrun, hstores, heq.trans (by simp [hidle])⟩

/-- Settles O24: with any other number of bytes delivered one trace of `BusRead` is left, and any answers leave one of them. -/
theorem busReadRejectsEveryOtherByteCount : Obligations.BusReadRejectsEveryOtherByteCount := by
  refine ⟨fun s v hstart hidle hv hmin hmax hturns hlen => ?_, fun s t hstart hidle hmin hmax hturns hexec hend => ?_⟩
  · obtain ⟨_, left, hrun, tr, r, htr, hR, rfl⟩ := exec_of_endsIn hstart hturns (show 33 ≤ _ by omega) fun q =>
      busRead_endsIn (q := q) (by simp [hidle]) hmin hmax
    obtain ⟨rfl, rfl⟩ := htr.eq_of_delivers hR
    rw [if_neg hv] at hrun
    exact ⟨_, hrun, rfl⟩
  · obtain ⟨_, left, rfl, tr, r, htr, -, rfl⟩ := completed_of_endsIn hstart hturns hexec hend fun q =>
      busRead_endsIn (q := q) (by simp [hidle]) hmin hmax
    refine ⟨tr, r, htr, ?_⟩
    cases r with
    | none => exact .inr ⟨rfl, rfl⟩
    | some v =>
      have hv : v.length = s.rdLen.toNat := by cases htr with | done _ _ hv => exact hv
      obtain ⟨hstores, heq⟩ := State.afterRead_some (tr := tr) hv hmax left
      exact .inl ⟨v, rfl, hstores, heq.trans (by simp [hidle])⟩

end Sys2Proof.Machine
end

section
/-! WAKE from acceptance to completion (44_wake_sleep R225, R226), one attempt of the command write (43_transaction R199), and SLEEP
(44_wake_sleep R228, R229, R231). -/

namespace Sys2Proof.Machine

/-! ## WAKE (44_wake_sleep R225) -/

theorem answered_isCtrl (x : Turn) (h : x.answered = true) : x.isCtrl = true := by
  cases x with
  | ctrl reply => rfl
  | host a | reset => cases h

/-- WAKE looks neither at TSTATE nor at what the environment says to the pulse. -/
theorem wake_endsIn {s : State} {q : Seq} : EndsIn Turn.answered 3 (s.onLine q (firstLine .wake))
    (· = State.complete .ok
      { s with pending := none, trace := s.trace ++ [.wakePulse Config.tWakeLow Config.tWakeHigh] }) := by
  refine .line answered_isCtrl nofun (u := (s.setPhase .wake).onLine q (.wake .pulse)) ?_ fun _ => rfl
  refine .step nofun fun x hx => ?_
  cases x with
  | host a | reset => cases hx
  | ctrl reply => cases reply with
    | none => cases hx
    | some r => exact ⟨some r, rfl, .completion (s := (s.setPhase .wake).answered wakePulse r) answered_isCtrl rfl⟩

/-- Settles O27: WAKE's two lines and its completion step. -/
theorem wakeSendsOnePulse : Obligations.WakeSendsOnePulse := by
  intro s hstart hturns hlen
  obtain ⟨_, left, hrun, rfl⟩ := exec_of_endsIn hstart hturns hlen fun q => wake_endsIn (q := q)
  exact ⟨_, hrun, rfl⟩

/-! ## One attempt of the command write (43_transaction R199) -/

theorem RetryFrame.refl (s : State) : RetryFrame s s := ⟨s.pending, [], s.tstate, s.phase, s.attempts, by simp⟩

theorem RetryFrame.trans {s t u : State} (h : RetryFrame s t) (h' : RetryFrame t u) : RetryFrame s u := by
  obtain ⟨pd, tr, ts, ph, n, rfl⟩ := h
  obtain ⟨pd', tr', ts', ph', n', rfl⟩ := h'
  exact ⟨pd', tr ++ tr', ts', ph', n', by simp⟩

/-- A primitive that calls another one returns as the callee's returns let it; J is what the calling line reads. -/
theorem Returns.inCall {P A P' B : Type} {step : P → Option BusReply → State → State × Flow P A}
    {caller : P' → Option BusReply → State → State × Flow P' B} {inside : P → P'} {flow : A → Flow P' B}
    {R : BusReply → Bool} {J : State → Prop} {Q : Nat → B → State → Prop} {n : Nat} {p : P} {s : State}
    (hline : ∀ p reply t, J t →
      caller (inside p) reply t = Machine.inCall (step p reply t) inside fun a t => (t, flow a))
    (hJ : ∀ p reply t, J t → J (step p reply t).1) (hs : J s)
    (h : Returns step R (fun m a t => Flow.Post (Returns caller R Q m) (Q m) (t, flow a)) n p s) :
    Returns caller R Q n (inside p) s := by
  induction n generalizing p s with
  | zero => exact h.elim
  | succ n ih =>
    intro r hr
    have hpost := h r hr
    have hJt := hJ p (some r) s hs
    rw [hline p (some r) s hs]
    generalize step p (some r) s = y at hpost hJt
    obtain ⟨t, p' | a⟩ := y
    · exact ih hJt hpost
    · exact hpost

/-- Attempt a of `WriteWithRetry(f)`, from the head of its loop: the write, which returns OK or goes on to the resync. -/
theorem retry_returns_of_attempt {R : BusReply → Bool} {Q : Nat → ResultCode → State → Prop} {f : List Byte} {a m n : Nat}
    {s : State} (ha : a ≤ 1 + s.snapRetries) (hm : n + 5 ≤ m) (hin : LetsIn R → n + 3 * f.length + 17 ≤ m)
    (hsent : ∀ tr k, WriteRuns s.devAddr s.ioaddr f tr true → AllowedTrace R tr → n + 1 ≤ k →
      Q k .ok (((s.setPhase .write).setAttempts a).afterBus tr .idle))
    (hfail : ∀ tr k, WriteRuns s.devAddr s.ioaddr f tr false → AllowedTrace R tr → n ≤ k →
      Returns (retryStep f) R Q k ⟨a, .setResync⟩ (((s.setPhase .write).setAttempts a).afterBus tr .failed)) :
    Returns (retryStep f) R Q (m + 3) ⟨a, .head⟩ s := by
  refine .stay (p' := ⟨a, .setWrite⟩) (t := s) (fun _ => by simp only [retryStep, if_pos ha]) ?_
  refine .stay (p' := ⟨a, .setAttempts⟩) (t := s.setPhase .write) (fun _ => rfl) ?_
  refine .stay (p' := ⟨a, .write .start⟩) (t := (s.setPhase .write).setAttempts a) (fun _ => rfl) ?_
  refine Returns.inCall (step := busWriteStep s.ioaddr f) (caller := retryStep f) (inside := fun w => RetryPos.mk a (.write w))
    (flow := fun ok => if ok then .ret ResultCode.ok else .at ⟨a, .setResync⟩) (J := fun t => t.ioaddr = s.ioaddr) ?_ ?_ rfl ?_
  · rintro w reply t ht
    simp only [retryStep, ht]
  · rintro w reply t ht
    obtain ⟨pd, tr, ts, hframe⟩ := busWriteStep_frame s.ioaddr f w reply t
    rw [hframe, ← ht]
  · refine busWrite_returns hm hin fun tr ok k htr hR hk => ?_
    cases ok with
    | false => exact hfail tr k htr hR hk
    | true => exact hsent tr k htr hR hk

/-- `WriteWithRetry` sees of the sequencer's position the snapshot of RETRIES alone (10_state R63). -/
theorem retryStep_onLine {q : Seq} {t : State} (hk : t.snapRetries = q.retries.toNat) (f : List Byte) (p : RetryPos)
    (l : Pos) (reply : Option BusReply) :
    retryStep f p reply (t.onLine q l) = mapState (State.onLine q l) (retryStep f p reply t) := by
  obtain ⟨a, line⟩ := p
  have hblind := busBlind_onLine q l
  cases line with
  | head =>
    simp only [retryStep, hk]
    rfl
  | setWrite | setAttempts | setResync | exhausted => rfl
  | write w =>
    have hio : (t.onLine q l).ioaddr = t.ioaddr := rfl
    simp only [retryStep, hio, hblind.busWriteStep]
    obtain ⟨u, w' | ok⟩ := busWriteStep t.ioaddr f w reply t <;> rfl
  | resync w =>
    simp only [retryStep, hblind.resyncStep]
    obtain ⟨u, w' | ok⟩ := resyncStep w reply t <;> rfl

/-! ## A frame built into TXBUF (43_transaction R195, 44_wake_sleep R228) -/

/-- A stored sequence reads back whole. -/
theorem State.bufSlice_setBufBytes {s : State} {b : Buf} {a : Nat} {v : List Byte} (h : a + v.length ≤ b.size s.params) :
    (s.setBufBytes b a v).bufSlice b a v.length = v := by
  obtain ⟨hread, -⟩ := State.setBufBytes_storesAt h
  refine List.ext_getElem (State.bufSlice_length ..) fun j _ hj => ?_
  rw [State.bufSlice_getElem, hread j hj, List.getD_eq_getElem _ _ hj]

/-- A frame f is built: it is in TXBUF, and FRAME_LEN is its length. -/
def State.withFrame (f : List Byte) (s : State) : State := ((s.setPhase .marshal).setBufBytes .txbuf 0 f).setFrameLen f.length

theorem State.withFrame_eq (f : List Byte) (s : State) : s.withFrame f =
    { s with phase := .marshal, mem := (s.withFrame f).mem, frameLen := BitVec.ofNat 8 f.length } := by
  obtain ⟨m, hm⟩ := State.setBufBytes_frame .txbuf 0 f (s.setPhase .marshal)
  rw [State.withFrame, hm]
  rfl

/-- The bytes that the command write takes from TXBUF are the frame. -/
theorem State.withFrame_bufSlice {s : State} {f : List Byte} (hfits : 0 + f.length ≤ Buf.txbuf.size s.params)
    (hbyte : f.length < 256) : (s.withFrame f).bufSlice .txbuf 0 (s.withFrame f).frameLen.toNat = f := by
  have hlen : (s.withFrame f).frameLen.toNat = f.length := by
    rw [State.withFrame_eq, BitVec.toNat_ofNat, Nat.mod_eq_of_lt hbyte]
  rw [hlen]
  exact State.bufSlice_setBufBytes (s := s.setPhase .marshal) hfits

/-! ## SLEEP (44_wake_sleep R228) -/

theorem sleepFrame_length (p : Params) (idle : Bool) : (sleepFrame p idle).length = 9 := by
  simp [sleepFrame, oneWayFrame_eq]

theorem sleepFrame_fits_txbuf {p : Params} (hp : p.legal = true) (idle : Bool) :
    0 + (sleepFrame p idle).length ≤ Buf.txbuf.size p := by
  obtain ⟨hmin, -⟩ := Params.maxCmdSize_bounds hp
  simpa [sleepFrame_length, Buf.size] using hmin

section
variable {R : BusReply → Bool} {n : Nat} {s : State} {q : Seq} {idle : Bool} {f : List Byte} {Q : State → Prop}

/-- The lines up to the command write, f being the frame. -/
theorem sleep_endsIn_of_write (hts : s.tstate ≠ .failed) (hf : sleepFrame s.params idle = f)
    (h : EndsIn (Turn.replies R) n ((s.withFrame f).onLine q (.sleep idle (.write retryStart))) Q) :
    EndsIn (Turn.replies R) (n + 6) (s.onLine q (firstLine (.sleep idle))) Q := by
  have hok := replies_isCtrl R
  refine .line hok nofun (u := (s.setPhase .check).onLine q (.sleep idle .seqCheck)) ?_ fun _ => rfl
  refine .line hok nofun (u := (s.setPhase .check).onLine q (.sleep idle .setMarshal)) ?_ fun _ => if_neg hts
  refine .line hok nofun (u := (s.setPhase .marshal).onLine q (.sleep idle .setMode)) ?_ fun _ => rfl
  refine .line hok nofun (u := (s.setPhase .marshal).onLine q (.sleep idle (.build (sleepModeByte s.params idle)))) ?_
    fun _ => rfl
  refine .line hok nofun (u := (s.setPhase .marshal).onLine q (.sleep idle (.store f))) ?_ fun _ => by rw [← hf]; rfl
  refine .line hok nofun h fun _ => ?_
  rw [lineStep, sleepLine, State.setBufBytes_onLine]
  rfl

/-- SLEEP's command write, f being the bytes that it takes from TXBUF. -/
theorem sleepLine_onLine (hf : s.bufSlice .txbuf 0 s.frameLen.toNat = f) (hk : s.snapRetries = q.retries.toNat)
    (p : RetryPos) (r : BusReply) {t : State} (ht : RetryFrame s t) :
    lineStep (.sleep idle (.write p)) (some r) (t.onLine q (.sleep idle (.write p))) =
      resume q (fun p => .sleep idle (.write p)) (fun w t => t.onLine q (.sleep idle (.result w)))
        (retryStep f p (some r) t) := by
  have hread : t.bufSlice .txbuf 0 t.frameLen.toNat = f ∧ t.snapRetries = q.retries.toNat := by
    obtain ⟨pd, tr, ts, ph, n, rfl⟩ := ht
    exact ⟨hf, hk⟩
  obtain ⟨rfl, hkt⟩ := hread
  exact callLine_onLine (retryStep_onLine hkt ..) fun _ _ => rfl

/-- SLEEP's lines after a command write that returned OK. -/
theorem sleep_endsIn_of_ok (h : Q (s.complete .ok)) :
    EndsIn (Turn.replies R) 2 (s.onLine q (.sleep idle (.result .ok))) Q := by
  have hok := replies_isCtrl R
  exact .line hok nofun (u := s.onLine q (.complete .ok)) (.completion hok h) fun _ => rfl

/-- SLEEP, its check passed, ends as the returns of `WriteWithRetry` let it. -/
theorem sleep_endsIn_of_retry (hp : s.params.legal = true) (hts : s.tstate ≠ .failed) (hf : sleepFrame s.params idle = f)
    (h : Returns (retryStep f) R (fun m w t => EndsIn (Turn.replies R) m (t.onLine q (.sleep idle (.result w))) Q) n
      retryStart ((s.withFrame f).onLine q (.sleep idle (.write retryStart)))) :
    EndsIn (Turn.replies R) (n + 6) (s.onLine q (firstLine (.sleep idle))) Q := by
  have hlen : f.length = 9 := hf ▸ sleepFrame_length ..
  have hslice := State.withFrame_bufSlice (s := s) (f := f) (hf ▸ sleepFrame_fits_txbuf hp idle) (by omega)
  refine sleep_endsIn_of_write hts hf ?_
  refine .call (s := (s.withFrame f).onLine q (.sleep idle (.write retryStart))) (inside := fun p => .sleep idle (.write p))
    (J := RetryFrame ((s.withFrame f).onLine q (.sleep idle (.write retryStart)))) (fun _ => nofun) (fun p r t ht => ?_)
    (fun p r t ht => ht.trans (retryStep_frame ..)) (.refl _) h
  exact sleepLine_onLine (s := (s.withFrame f).onLine q (.sleep idle (.write retryStart))) hslice rfl p r ht

/-- With every Start granted and every byte acknowledged, SLEEP makes one attempt. -/
theorem sleep_endsIn_granted (hp : s.params.legal = true) (hts : s.tstate ≠ .failed) (hf : sleepFrame s.params idle = f) :
    EndsIn (Turn.replies BusReply.grants) 55 (s.onLine q (firstLine (.sleep idle)))
      (· = (((s.withFrame f).setAttempts 1).afterBus (writeTrace s.devAddr s.ioaddr f) .idle).complete .ok) := by
  have hlen : f.length = 9 := hf ▸ sleepFrame_length ..
  have hdev : (s.withFrame f).devAddr = s.devAddr := by rw [State.withFrame_eq]
  have hio : (s.withFrame f).ioaddr = s.ioaddr := by rw [State.withFrame_eq]
  refine sleep_endsIn_of_retry hp hts hf (retry_returns_of_attempt (n := 1) (m := 46) (Nat.le_add_right 1 _) (by omega)
    (fun _ => by omega) (fun tr k htr hR hk => ?sent) fun tr k htr hR _ => ?failed)
  case sent =>
    obtain ⟨-, rfl⟩ := htr.eq_of_grants hR
    refine (sleep_endsIn_of_ok ?_).mono hk
    rw [← hdev, ← hio]
    rfl
  case failed => cases (htr.eq_of_grants hR).1

end

/-- Settles O28: with everything granted the first attempt of `WriteWithRetry` returns OK. -/
theorem sleepSendsTheOneWayFrame : Obligations.SleepSendsTheOneWayFrame := by
  intro s idle hstart hp hidle hturns hlen
  generalize hf : sleepFrame s.params idle = f
  have hf9 : f.length = 9 := hf ▸ sleepFrame_length ..
  obtain ⟨_, left, hrun, rfl⟩ := exec_of_endsIn hstart hturns (show 55 ≤ _ by omega) fun q =>
    sleep_endsIn_granted (q := q) hp (by simp [hidle]) hf
  refine ⟨_, hrun, State.setBufBytes_storesAt (s := s.setPhase .marshal) (hf ▸ sleepFrame_fits_txbuf hp idle), ?_⟩
  rw [State.withFrame_eq, hf9, ← hidle]
  rfl

end Sys2Proof.Machine
end

section
/-! The status mapping: a legal STATUS_TABLE pairs each named code with one byte, and every other byte is UNKNOWN (00_scope R11,
41_framer R148, R151). -/

namespace Sys2Proof.Machine

/-- What makes a STATUS_TABLE legal (00_scope R11, 41_framer R151). -/
structure LegalTable (table : List (Byte × DeviceCode)) : Prop where
  codes : table.map Prod.snd = DeviceCode.named
  bytes : (table.map Prod.fst).Nodup
  zero : (0x00#8, .success) ∈ table
  absent : 0xC7#8 ∉ table.map Prod.fst

theorem legalTable_of_legal {p : Params} (h : p.legal = true) : LegalTable p.statusTable := by
  simp only [Params.legal, Params.tableLegal, Bool.and_eq_true, beq_iff_eq, decide_eq_true_eq, Bool.not_eq_true',
    List.contains_eq_mem, decide_eq_false_iff_not] at h
  obtain ⟨-, ⟨⟨hcodes, hbytes⟩, hzero⟩, habsent⟩ := h
  exact ⟨hcodes, hbytes, List.mem_of_mem_head? hzero, habsent⟩

/-- In a table with distinct keys a lookup finds just the listed pairs. -/
theorem lookup_eq_some_iff_mem {α β : Type} [BEq α] [LawfulBEq α] {table : List (α × β)} (h : (table.map Prod.fst).Nodup)
    {a : α} {b : β} : table.lookup a = some b ↔ (a, b) ∈ table := by
  induction table with
  | nil => simp
  | cons row rest ih =>
    obtain ⟨k, c⟩ := row
    obtain ⟨hk, hrest⟩ := List.nodup_cons.1 h
    by_cases hak : a = k
    · subst hak
      have hnone : (a, b) ∉ rest := fun hmem => hk (List.mem_map.2 ⟨(a, b), hmem, rfl⟩)
      simp [hnone, eq_comm]
    · have hkey : (a == k) = false := by simpa using hak
      simp [List.lookup_cons, hkey, hak, ih hrest]

/-- A code other than UNKNOWN is a byte's exactly when the table lists the pair. -/
theorem deviceCode_eq_iff {p : Params} (ht : LegalTable p.statusTable) {b : Byte} {c : DeviceCode} (hc : c ≠ .unknown) :
    deviceCode p b = c ↔ (b, c) ∈ p.statusTable := by
  rw [← lookup_eq_some_iff_mem ht.bytes, deviceCode]
  cases p.statusTable.lookup b with
  | none => simp [hc.symm]
  | some c' => simp

/-- A listed byte has a named code, every other byte UNKNOWN (41_framer R151). -/
theorem deviceCode_named_or_unknown {p : Params} (ht : LegalTable p.statusTable) (b : Byte) :
    deviceCode p b ∈ DeviceCode.named ∨ deviceCode p b = .unknown := by
  by_cases hc : deviceCode p b = .unknown
  · exact .inr hc
  · exact .inl (ht.codes ▸ List.mem_map_of_mem (f := Prod.snd) ((deviceCode_eq_iff ht hc).1 rfl))

/-- Each named code has its one byte (41_framer R151): the table lists every named code, and none twice. -/
theorem existsUnique_byte_of_named {p : Params} (ht : LegalTable p.statusTable) {c : DeviceCode} (hc : c ∈ DeviceCode.named) :
    ∃! b, deviceCode p b = c := by
  have hne : c ≠ .unknown := by rintro rfl; revert hc; decide
  have hnodup : (p.statusTable.map Prod.snd).Nodup := by rw [ht.codes]; decide
  rw [← ht.codes, List.mem_map] at hc
  obtain ⟨⟨b, _⟩, hmem, rfl⟩ := hc
  refine ⟨b, (deviceCode_eq_iff ht hne).2 hmem, fun b' hb' => ?_⟩
  have hpair := List.inj_on_of_nodup_map hnodup ((deviceCode_eq_iff ht hne).1 hb') hmem rfl
  exact congrArg Prod.fst hpair

/-- 0x00 is SUCCESS, and no other byte is (00_scope R11). -/
theorem deviceCode_eq_success_iff {p : Params} (ht : LegalTable p.statusTable) {b : Byte} :
    deviceCode p b = .success ↔ b = 0x00#8 := by
  have hzero : deviceCode p 0x00#8 = .success := (deviceCode_eq_iff ht (by decide)).2 ht.zero
  exact ⟨fun hb => (existsUnique_byte_of_named ht (by decide)).unique hb hzero, fun hb => hb ▸ hzero⟩

/-- A byte the table does not list is UNKNOWN (41_framer R151). -/
theorem deviceCode_eq_unknown_of_not_listed {p : Params} (ht : LegalTable p.statusTable) {b : Byte}
    (hb : b ∉ p.statusTable.map Prod.fst) : deviceCode p b = .unknown := by
  by_contra hc
  exact hb (List.mem_map_of_mem (f := Prod.fst) ((deviceCode_eq_iff ht hc).1 rfl))

theorem deviceResult_eq_ok_iff {c : DeviceCode} : deviceResult c = .ok ↔ c = .success := by cases c <;> decide

theorem deviceResult_eq_unknownDeviceError_iff {c : DeviceCode} : deviceResult c = .unknownDeviceError ↔ c = .unknown := by
  cases c <;> decide

/-- Settles O20: a legal table is one to one between its bytes and the named codes. -/
theorem statusMappingIsTotalAndUnknownIsNeverOk : Obligations.StatusMappingIsTotalAndUnknownIsNeverOk := by
  intro p hp
  have ht := legalTable_of_legal hp
  refine ⟨deviceCode_named_or_unknown ht, fun c hc => existsUnique_byte_of_named ht hc, fun b => ?_,
    fun _ => deviceResult_eq_unknownDeviceError_iff, deviceCode_eq_unknown_of_not_listed ht ht.absent⟩
  rw [deviceResult_eq_ok_iff, deviceCode_eq_success_iff ht]

end Sys2Proof.Machine
end

section
/-! Device results and link results (60_exceptions R244): EXECUTE and UNMARSHAL clear RSP before anything can complete them, and set
it again only together with the code of a valid frame. -/

namespace Sys2Proof.Machine

/-! ## Which RESULT goes with which RSP -/

/-- The RESULT codes that report a device's answer (60_exceptions R244). -/
def deviceResults : List ResultCode := [.ok, .deviceError, .unknownDeviceError]

theorem deviceResult_mem (c : DeviceCode) : deviceResult c ∈ deviceResults := by cases c <;> decide

/-- RESULT is the device's code of the valid frame in RSP, or a link's code with "no frame" in RSP (60_exceptions R244). -/
inductive ResultFits : ResultCode → Rsp → Prop where
  | device {r : Rsp} : r.valid = true → ResultFits (deviceResult r.code) r
  | link {w : ResultCode} : w ∉ deviceResults → ResultFits w noFrame

/-- The two kinds of result are told apart by RSP.VALID. -/
theorem ResultFits.separates {w : ResultCode} {r : Rsp} (h : ResultFits w r) :
    (w ∈ deviceResults ↔ r.valid = true) ∧ (r.valid = true → w = deviceResult r.code) ∧ (r.valid = false → r = noFrame) := by
  cases h with
  | device hvalid => exact ⟨iff_of_true (deviceResult_mem _) hvalid, fun _ => rfl, fun h => by simp [hvalid] at h⟩
  | link hw => exact ⟨iff_of_false hw nofun, nofun, fun _ => rfl⟩

/-- RSP at a line of UNMARSHAL or EXECUTE: "no frame" once the clearing line has run, and at the completion step what goes with the
code to record. The command write answers OK or a link's code. -/
def Pos.fitsRsp (r : Rsp) : Pos → Prop
  | .unmarshal .setPhase | .unmarshal .clearRsp => True
  | .unmarshal _ => r = noFrame
  | .execute _ .setCheck | .execute _ .clearRsp => True
  | .execute _ (.result w) => r = noFrame ∧ (w = .ok ∨ w ∉ deviceResults)
  | .execute _ _ => r = noFrame
  | .complete code => ResultFits code r
  | .accepted | .crc _ _ | .marshal _ | .busWrite _ | .busRead _ | .resync _ | .wake _ | .sleep _ _ => False

/-- RSP is right for the line of the running command, and for RESULT once the command has ended. -/
structure RspFits (s : State) : Prop where
  running : ∀ q, s.seq = some q → q.pos.fitsRsp s.rsp
  ended : s.seq = none → ResultFits s.result s.rsp

section
variable {s : State} {q : Seq} {p : Pos}

theorem RspFits.goto (hq : s.seq = some q) (hp : p.fitsRsp s.rsp) : RspFits (s.goto p) where
  running _ hq' := by
    rw [s.goto_seq, hq] at hq'
    cases hq'
    exact hp
  ended h := by simp [hq] at h

theorem RspFits.complete {code : ResultCode} (h : ResultFits code s.rsp) : RspFits (s.complete code) where
  running := nofun
  ended _ := h

/-- Completion with a link's code while RSP is cleared. -/
theorem RspFits.completeLink {code : ResultCode} (hrsp : s.rsp = noFrame) (hcode : code ∉ deviceResults) :
    RspFits (s.complete code) := .complete (hrsp ▸ .link hcode)

theorem RspFits.completeOrGoto {c : Prop} [Decidable c] {code : ResultCode} (hq : s.seq = some q) (hrsp : s.rsp = noFrame)
    (hcode : code ∉ deviceResults) (hp : p.fitsRsp s.rsp) : RspFits (if c then s.complete code else s.goto p) := by
  split
  · exact .completeLink hrsp hcode
  · exact .goto hq hp

/-- A valid frame's status byte sets RSP and the code to record together (41_framer R148). -/
theorem RspFits.applyStatus (hq : s.seq = some q) (n : Nat) (status : Byte) : RspFits (s.applyStatus n status) :=
  .goto (s := s.setRsp (validRsp s.params n status)) hq (ResultFits.device (r := validRsp s.params n status) rfl)

/-- A line that calls a primitive which leaves the sequencer and RSP alone: the lines inside it have RSP cleared, and its own part
goes on from the answer. -/
theorem RspFits.callLine {P A : Type} {at₁ : P → State → Prop} {ret₁ : A → State → Prop} {x : State × Flow P A}
    {inside : P → Pos} {k : A → State → State} (hx : Flow.Post at₁ ret₁ x) (hq : x.1.seq = some q) (hrsp : x.1.rsp = noFrame)
    (hin : ∀ p, (inside p).fitsRsp noFrame)
    (hk : ∀ a t, ret₁ a t → t.seq = some q → t.rsp = noFrame → RspFits (k a t)) : RspFits (callLine x inside k) := by
  obtain ⟨t, p | a⟩ := x
  · exact .goto hq (by rw [hrsp]; exact hin p)
  · exact hk a t hx hq hrsp

/-- The same for a bus primitive. -/
theorem RspFits.busCall {P A : Type} {x : State × Flow P A} {inside : P → Pos} {k : A → State → State} (hx : BusFrame s x.1)
    (hq : s.seq = some q) (hrsp : s.rsp = noFrame) (hin : ∀ p, (inside p).fitsRsp noFrame)
    (hk : ∀ a t, t.seq = some q → t.rsp = noFrame → RspFits (k a t)) : RspFits (Machine.callLine x inside k) := by
  obtain ⟨pd, tr, ts, he⟩ := hx
  exact .callLine (Flow.Post.trivial x) (by rw [he]; exact hq) (by rw [he]; exact hrsp) hin fun a t _ => hk a t

end

/-! ## The lines of the two commands -/

/-- The command write answers OK or a link's code (43_transaction R199 to R201). -/
theorem retryStep_answer (f : List Byte) (p : RetryPos) (reply : Option BusReply) (s : State) :
    Flow.Post (fun _ _ => True) (fun w _ => w = .ok ∨ w ∉ deviceResults) (retryStep f p reply s) := by
  obtain ⟨n, l⟩ := p
  cases l with
  | head | setWrite | setAttempts | setResync => trivial
  | write w =>
    refine .inCall (Flow.Post.trivial _) (fun _ _ _ => trivial) fun ok t _ => ?_
    cases ok with
    | true => exact .inl rfl
    | false => trivial
  | resync r =>
    refine .inCall (Flow.Post.trivial _) (fun _ _ _ => trivial) fun ok t _ => ?_
    cases ok with
    | true => trivial
    | false => exact .inr (by decide)
  | exhausted => exact .inr (by decide)

/-- Each line of UNMARSHAL after the clearing one keeps RSP cleared until it applies a valid frame's status (41_framer R146). -/
theorem unmarshalLine_rspFits {l : UnmarshalLine} {s : State} {q : Seq} (hq : s.seq = some q)
    (hl : (Pos.unmarshal l).fitsRsp s.rsp) : RspFits (unmarshalLine l s) := by
  cases l with
  | setPhase => exact .goto (s := s.setPhase _) hq trivial
  | clearRsp => exact .goto (s := s.setRsp noFrame) hq rfl
  | getLen | run n => exact .goto hq hl
  | check n => exact .completeOrGoto hq hl (by decide) hl
  | checkFrame n v => cases v with
    | valid status => exact .goto hq hl
    | frameShort | crcError | frameCountError => exact .completeLink hl (by decide)
  | apply n status => exact .applyStatus hq n status

/-- The same for EXECUTE, whose other endings are all a link's (43_transaction R195 to R209). -/
theorem executeLine_rspFits {wakeFirst : Bool} {l : ExecuteLine} {s : State} {q : Seq} (reply : Option BusReply)
    (hq : s.seq = some q) (hpos : q.pos = .execute wakeFirst l) (hl : (Pos.execute wakeFirst l).fitsRsp s.rsp) :
    RspFits (executeLine wakeFirst l reply s) := by
  cases l with
  | setCheck => exact .goto (s := s.setPhase _) hq trivial
  | clearRsp => exact .goto (s := s.setRsp noFrame) hq rfl
  | seqCheck | lenCheck | shortCheck c | longCheck c | restartCheck c v => exact .completeOrGoto hq hl (by decide) hl
  | setMarshal | setWake | setWait | setReadCount | setReadBody c | setUnmarshal c | failSetResync =>
    exact .goto (s := s.setPhase _) hq hl
  | build | bindCount v | ifContinue c | bindBody c v | unmarshal c => exact .goto hq hl
  | ifWake => cases wakeFirst <;> exact .goto hq hl
  | check r => cases r with
    | none => exact .completeLink hl (by decide)
    | some f => exact .goto hq hl
  | store f =>
    exact .goto (s := (s.setBufBytes .txbuf 0 f).setFrameLen f.length) (q := q) (by simpa using hq)
      ((s.setBufBytes_rsp ..).trans hl)
  | pulse => cases reply with
    | none => exact ⟨fun q' hq' => by cases hq.symm.trans hq'; rw [hpos]; exact hl, fun h => nomatch hq.symm.trans h⟩
    | some r => exact .goto (s := s.answered wakePulse r) hq hl
  | write p =>
    obtain ⟨pd, tr, ts, ph, n, he⟩ := retryStep_frame (s.bufSlice .txbuf 0 s.frameLen.toNat) p reply s
    refine .callLine (retryStep_answer ..) (by rw [he]; exact hq) (by rw [he]; exact hl) (fun _ => rfl) ?_
    exact fun w t hw ht hrsp => .goto ht ⟨hrsp, hw⟩
  | result w =>
    obtain ⟨hrsp, hw⟩ := hl
    simp only [executeLine]
    split
    · exact .goto hq hrsp
    · next hne => exact .completeLink hrsp (hw.resolve_left hne)
  | wait => exact .goto (s := s.recordWait _) hq hl
  | readCount p | readBody c p =>
    exact .busCall (busReadStep_frame ..) hq hl (fun _ => rfl) fun v t ht hrsp => .goto ht hrsp
  | countResult v | bodyResult c v => cases v <;> exact .goto hq hl
  | storeCount c =>
    exact .goto (s := (s.setBufBytes .rxbuf 0 [c]).setRxLen 1) (q := q) (by simpa using hq)
      ((s.setBufBytes_rsp ..).trans hl)
  | storeBody c v =>
    simp only [executeLine]
    split <;> exact .goto (s := (s.setBufBytes .rxbuf _ v).setRxLen c.toNat) (q := q) (by simpa using hq)
      ((s.setBufBytes_rsp ..).trans hl)
  | checkFrame c v => cases v with
    | valid status => exact .goto hq hl
    | frameShort | crcError | frameCountError => exact .completeLink hl (by decide)
  | apply c status => exact .applyStatus hq c.toNat status
  | failClearLen => exact .goto (s := s.setRxLen 0) hq hl
  | failResync p =>
    refine .busCall (resyncStep_frame ..) hq hl (fun _ => rfl) fun ok t ht hrsp => ?_
    cases ok with
    | true => exact .goto ht (hrsp ▸ .link (by decide))
    | false => exact .completeLink hrsp (by decide)

/-- Every line of the two commands keeps RSP right. -/
theorem lineStep_rspFits {s : State} {q : Seq} (reply : Option BusReply) (hq : s.seq = some q) (hs : RspFits s) :
    RspFits (lineStep q.pos reply s) := by
  have hfits := hs.running q hq
  cases hpos : q.pos with
  | unmarshal l => exact unmarshalLine_rspFits hq (hpos ▸ hfits)
  | execute wakeFirst l => exact executeLine_rspFits reply hq hpos (hpos ▸ hfits)
  | complete code =>
    rw [hpos] at hfits
    exact .complete hfits
  | accepted | crc _ _ | marshal _ | busWrite _ | busRead _ | resync _ | wake _ | sleep _ _ =>
    rw [hpos] at hfits
    exact hfits.elim

/-- A host access to a busy controller changes neither the position nor RSP and RESULT (20_memory R75). -/
theorem State.access_rspFits {s : State} (hbusy : s.busy = true) (a : Access) (hs : RspFits s) : RspFits (s.access a) := by
  obtain ⟨ie, rt, d, o, l, n, he⟩ := State.access_busy hbusy a
  rw [he]
  exact ⟨hs.running, hs.ended⟩

/-- UNMARSHAL and EXECUTE, completed or still running, leave RSP right. -/
theorem exec_rspFits {s t : State} {i : Instr} (hfirst : (firstLine i).fitsRsp s.rsp) (hstart : s.atStart = true)
    (hbusy : s.busy = true) (hturns : s.turns.all Turn.notReset = true) (h : exec i s = .next t) : RspFits t := by
  obtain ⟨q, hq, hp⟩ := State.atStart_iff.1 hstart
  have start : (s.goto (firstLine i)).RunsBusy i := ⟨fun _ => hbusy, .goto (firstLine_inRunOf i) s⟩
  rw [exec_eq, State.runCommand_atStart hq hp] at h
  cases h
  have run := State.runTurns_induct (I := fun u => u.RunsBusy i ∧ RspFits u)
    (fun _ _ ⟨hrb, hu⟩ => ⟨hrb, hu.running, hu.ended⟩)
    (fun _ _ _ hq hx ⟨hrb, hu⟩ => advance_keeps_inRun (fun _ _ reply hq _ hu => lineStep_rspFits reply hq hu)
      (fun _ a hb hu => State.access_rspFits hb a hu) hq hx hrb hu)
    hturns ⟨start, .goto hq hfirst⟩
  exact run.2

/-- Settles O46: RSP is right for RESULT when the command has ended. -/
theorem deviceAndLinkResultsAreNeverConflated : Obligations.DeviceAndLinkResultsAreNeverConflated := by
  intro s t i hi hstart hbusy hturns h hend
  have hfirst : (firstLine i).fitsRsp s.rsp := by
    simp only [List.mem_cons, List.not_mem_nil, or_false] at hi
    rcases hi with rfl | rfl | rfl <;> trivial
  exact ((exec_rspFits hfirst hstart hbusy hturns h).ended hend).separates

end Sys2Proof.Machine
end

section
/-! One step: the accepted command's run, the acceptance of a CMD write, and that there is always a next state (60_exceptions R240,
R241). -/

namespace Sys2Proof.Machine

/-- Settles O1: the controller's turn fetches the snapshotted word, decodes it and runs its command. -/
theorem stepRunsTheAcceptedCommand : Obligations.StepRunsTheAcceptedCommand := by
  intro s reply rest q i hturns hq hdecode
  simp only [step, State.nextMove, hturns, hq, hdecode]

/-- A command word within 32 bits is decoded whole (30_encoding R95). -/
theorem decode_of_decodeTableWord {n w : Nat} {i : Instr} (h : decodeTableWord n w = some i) :
    decode (BitVec.ofNat 32 (w % 2 ^ n)) = .ok i := by
  rw [decodeTableWord] at h
  cases hdecode : decode (BitVec.ofNat 32 (w % 2 ^ n)) with
  | ok j => simpa [hdecode, Except.toOption] using h
  | error e => simp [hdecode, Except.toOption] at h

/-- A placed word has just been accepted (60_exceptions R241; log 13). -/
theorem State.atStart_withFetchWord (s : State) (n w : Nat) : (s.withFetchWord n w).atStart = true :=
  State.atStart_iff.2 ⟨_, rfl, rfl⟩

/-- Settles O2: after the placing the first move is the controller's, and it runs the placed word. -/
theorem placedWordRunsNext : Obligations.PlacedWordRunsNext := fun s w i h =>
  ⟨s.atStart_withFetchWord 32 w, stepRunsTheAcceptedCommand _ none _ _ i rfl rfl (decode_of_decodeTableWord h)⟩

/-- While BUSY = 0 a CMD write is the acceptance of its word (60_exceptions R241). -/
theorem State.hostWrite_cmd {s : State} (hbusy : s.busy = false) (w : Word) : s.hostWrite (.reg .cmd) w = s.accept w := by
  simp [State.hostWrite, hbusy]

/-- Settles O4: the write reaches CMD, which accepts any word while BUSY = 0. -/
theorem cmdWriteIsAcceptedWhenIdle : Obligations.CmdWriteIsAcceptedWhenIdle := by
  intro s w rest hturns hbusy
  rw [step_write hturns (target_reg _ .cmd), State.hostWrite_cmd (s := { s with turns := rest }) hbusy]
  rfl

/-- Settles O41: nothing, one move of an agent, and the run of a command each answer a next state. -/
theorem everyStepAnswersANextState : Obligations.EveryStepAnswersANextState := by
  intro s
  rcases step_cases s with ⟨_, h⟩ | ⟨_, _, _, h⟩ | ⟨_, _, _, _, _, _, _, h⟩
  · exact ⟨_, h⟩
  · exact ⟨_, h⟩
  · exact ⟨_, h⟩

end Sys2Proof.Machine
end

section
/-! Reset: the reset step (70_reset_and_hazards R270, R272) and the register words after it (R271). -/

namespace Sys2Proof.Machine

/-! ## The reset step -/

/-- A reset on the schedule is the next step, whatever the controller is doing (00_scope R26, 70_reset_and_hazards R270). -/
theorem step_reset {s : State} {rest : List Turn} (h : s.turns = .reset :: rest) :
    step s = .next (State.resetStep { s with turns := rest }) := by simp [step, State.nextMove, h]

/-- A byte nobody has written since reset holds its free value (70_reset_and_hazards R272; log 7). -/
theorem State.byteAt_of_mem_nil {s : State} (h : s.mem = []) (off : Nat) : s.byteAt off = Config.bufferByte s.epoch off := by
  simp [State.byteAt, h, Memory.read]

/-- No buffer byte keeps its value over a reset: each is a draw of the new epoch (70_reset_and_hazards R272; log 7). -/
theorem State.resetStep_byteAt (s : State) (off : Nat) :
    s.resetStep.byteAt off = Config.bufferByte (s.epoch + 1) off := State.byteAt_of_mem_nil rfl off

/-- IRQ is 0 right after reset, DONE being 0 (70_reset_and_hazards R270). -/
theorem State.initial_irq (p : Params) : (State.initial p).irq = false := rfl

theorem State.resetStep_irq (s : State) : s.resetStep.irq = false := State.initial_irq s.params

/-- Settles O58. -/
theorem resetStepRestoresResetValues : Obligations.ResetStepRestoresResetValues := fun _ _ hturns =>
  ⟨_, step_reset hturns, State.resetStep_irq _, rfl, State.resetStep_byteAt _⟩

/-! ## The register words after reset -/

/-- The registers whose whole word is 0 after reset, for every build of the controller (70_reset_and_hazards R271). -/
def zeroResetRegs : List Reg :=
  [.status, .cmd, .waddr, .opcode, .mode, .param1, .param2, .dlen, .wrLen, .rdLen, .crcLen, .frameLen, .rxLen, .crc]

/-- STATUS is 0 after reset: idle and at rest, whatever the parameters (70_reset_and_hazards R271). -/
theorem State.initial_statusWord (p : Params) : (State.initial p).statusWord = 0#32 := by
  have defaults : State.reset.statusWord = 0#32 := by decide
  exact defaults

/-- RSP after reset holds no frame: CODE NONE alone (70_reset_and_hazards R271). -/
theorem noFrame_word : noFrame.word = 0x00000F00#32 := by decide

theorem State.initial_regWord_zero (p : Params) {r : Reg} (h : r ∈ zeroResetRegs) : (State.initial p).regWord r = 0#32 := by
  cases r with
  | ctrl | result | devAddr | ioaddr | respLen | rsp => simp [zeroResetRegs] at h
  | status => exact State.initial_statusWord p
  | _ => rfl

theorem Params.rxBufSize_bounds {p : Params} (hp : p.legal = true) : 4 ≤ p.rxBufSize ∧ p.rxBufSize ≤ 128 := by
  simp only [Params.legal, Bool.and_eq_true, decide_eq_true_eq] at hp
  obtain ⟨⟨⟨-, hlow⟩, hhigh⟩, -⟩ := hp
  exact ⟨hlow, hhigh⟩

/-- RESP_LEN is reset to RX_BUF_SIZE, which its 8 bits hold (70_reset_and_hazards R271, 00_scope R10). -/
theorem State.initial_regWord_respLen {p : Params} (hp : p.legal = true) :
    (State.initial p).regWord .respLen = BitVec.ofNat 32 p.rxBufSize :=
  BitVec.setWidth_ofNat_of_le_of_lt (by decide) ((Params.rxBufSize_bounds hp).2.trans_lt (by decide))

/-- Settles O59: RESP_LEN alone needs the parameters legal. -/
theorem resetRegisterWords : Obligations.ResetRegisterWords := by
  refine ⟨fun p hp => ⟨?_, rfl, noFrame_word, ?_, rfl, rfl, State.initial_irq p⟩, rfl, rfl, rfl, rfl⟩
  · exact List.all_eq_true.2 fun r hr => beq_iff_eq.2 (State.initial_regWord_zero p hr)
  · exact State.initial_regWord_respLen hp

end Sys2Proof.Machine
end

section
/-! The checks of EXECUTE, and the lines between its bus primitives (43_transaction R195 to R209). -/

namespace Sys2Proof.Machine

/-! ## Runs over an exact number of moves -/

/-- Over any n moves that `ok` allows, whatever moves follow them, the command in s comes to u. -/
def LeadsTo (ok : Turn → Bool) (n : Nat) (s u : State) : Prop :=
  ∀ ts rest : List Turn, ts.all ok = true → ts.length = n → State.runTurns (ts ++ rest) s = State.runTurns rest u

section
variable {ok : Turn → Bool} {m n : Nat} {s t u : State} {q : Seq} {p : Pos} {Q : State → Prop}

theorem LeadsTo.refl (s : State) : LeadsTo ok 0 s s := fun ts rest _ hlen => by
  rw [List.length_eq_zero_iff.1 hlen, List.nil_append]

/-- A move of the controller at a line, and then the moves from where the line leads. -/
theorem LeadsTo.step (hp : p ≠ .accepted)
    (h : ∀ x, ok x = true → ∃ reply, x = .ctrl reply ∧ LeadsTo ok n (lineStep p reply (s.onLine q p)) u) :
    LeadsTo ok (n + 1) (s.onLine q p) u := by
  intro ts rest hts hlen
  cases ts with
  | nil => simp at hlen
  | cons x ts =>
    simp only [List.all_cons, Bool.and_eq_true] at hts
    obtain ⟨hx, hts⟩ := hts
    obtain ⟨reply, rfl, hu⟩ := h x hx
    rw [List.cons_append, State.runTurns_ctrl (s := s.onLine q p) rfl hp]
    exact hu ts rest hts (by simpa using hlen)

/-- A line that does not look at the reply. -/
theorem LeadsTo.line (hok : ∀ x, ok x = true → x.isCtrl = true) (hp : p ≠ .accepted) (h : LeadsTo ok n t u)
    (hline : ∀ reply, lineStep p reply (s.onLine q p) = t) : LeadsTo ok (n + 1) (s.onLine q p) u := by
  refine .step hp fun x hx => ?_
  cases x with
  | host a | reset => cases hok _ hx
  | ctrl reply => exact ⟨reply, rfl, by rwa [hline]⟩

/-- One line that does not look at the reply. -/
theorem LeadsTo.single (hok : ∀ x, ok x = true → x.isCtrl = true) (hp : p ≠ .accepted)
    (hline : ∀ reply, lineStep p reply (s.onLine q p) = t) : LeadsTo ok 1 (s.onLine q p) t :=
  .line hok hp (.refl t) hline

theorem LeadsTo.trans (h : LeadsTo ok m s t) (h' : LeadsTo ok n t u) : LeadsTo ok (m + n) s u := by
  intro ts rest hts hlen
  rw [← List.take_append_drop m ts] at hts ⊢
  rw [List.all_append, Bool.and_eq_true] at hts
  obtain ⟨htake, hdrop⟩ := hts
  rw [List.append_assoc, h _ _ htake (by simp; omega), h' _ _ hdrop (by simp; omega)]

theorem LeadsTo.mono {ok' : Turn → Bool} (h : LeadsTo ok n s u) (hok : ∀ x, ok' x = true → ok x = true) :
    LeadsTo ok' n s u := fun ts rest hts =>
  h ts rest (List.all_eq_true.2 fun x hx => hok x (List.all_eq_true.1 hts x hx))

/-- How the command ends from u on, it ends from s on, n moves more. -/
theorem LeadsTo.endsIn (h : LeadsTo ok n s u) (hu : EndsIn ok m u Q) : EndsIn ok (n + m) s Q := by
  intro ts hts hlen
  rw [← List.take_append_drop n ts] at hts ⊢
  rw [List.all_append, Bool.and_eq_true] at hts
  obtain ⟨htake, hdrop⟩ := hts
  rw [h _ _ htake (by simp; omega)]
  exact hu _ hdrop (by simp; omega)

end

/-- A command at its start, of which the snapshot is known, ends where its lines lead (60_exceptions R241). -/
theorem exec_of_endsIn_of_seq {ok : Turn → Bool} {n : Nat} {s : State} {i : Instr} {Q : State → Prop}
    (hstart : s.atStart = true) (hturns : s.turns.all ok = true) (hlen : n ≤ s.turns.length)
    (h : ∀ q, s.seq = some q → EndsIn ok n (s.onLine q (firstLine i)) Q) :
    ∃ t left, exec i s = .next { t with turns := left } ∧ Q t := by
  obtain ⟨q, hq, hp⟩ := State.atStart_iff.1 hstart
  obtain ⟨t, left, hrun, ht⟩ := h q hq s.turns hturns hlen
  exact ⟨t, left, by rw [exec_eq, State.runCommand_atStart hq hp, State.goto_eq_onLine hq, hrun], ht⟩

/-- The same for a command that ends over any of the controller's moves. -/
theorem completed_of_endsIn_of_seq {n : Nat} {s t : State} {i : Instr} {Q : State → Prop} (hstart : s.atStart = true)
    (hturns : s.turns.all Turn.isCtrl = true) (hexec : exec i s = .next t) (hend : t.seq = none)
    (h : ∀ q, s.seq = some q → EndsIn (Turn.replies fun _ => true) n (s.onLine q (firstLine i)) Q) :
    ∃ u left, t = { u with turns := left } ∧ Q u := by
  obtain ⟨q, hq, hp⟩ := State.atStart_iff.1 hstart
  rw [exec_eq, State.runCommand_atStart hq hp] at hexec
  cases hexec
  have hruns : (s.goto (firstLine i)).Runs i := .goto (firstLine_inRunOf i) s
  rw [State.goto_eq_onLine hq] at hruns hend ⊢
  exact (h q hq).of_completed hruns hturns hend

/-! ## EXECUTE's checks and its marshalling (43_transaction R196, R197) -/

section
variable {ok : Turn → Bool} {s : State} {q : Seq} {w : Bool}

/-- The lines up to the check of RESP_LEN. -/
theorem execute_leadsTo_lenCheck (hok : ∀ x, ok x = true → x.isCtrl = true) (hts : s.tstate ≠ .failed) :
    LeadsTo ok 3 (s.onLine q (firstLine (.execute w)))
      (((s.setPhase .check).setRsp noFrame).onLine q (.execute w .lenCheck)) := by
  refine .line hok nofun (t := (s.setPhase .check).onLine q (.execute w .clearRsp)) ?_ fun _ => rfl
  refine .line hok nofun (t := ((s.setPhase .check).setRsp noFrame).onLine q (.execute w .seqCheck)) ?_ fun _ => rfl
  exact .single hok nofun fun _ => if_neg hts

/-- The lines up to the check of what `Marshal` answered. -/
theorem execute_leadsTo_check (hok : ∀ x, ok x = true → x.isCtrl = true) (hts : s.tstate ≠ .failed)
    (hlen : ¬(s.respLen.toNat < 4 ∨ s.params.rxBufSize < s.respLen.toNat)) :
    LeadsTo ok 6 (s.onLine q (firstLine (.execute w)))
      (((s.setRsp noFrame).setPhase .marshal).onLine q (.execute w (.check s.commandFrame))) := by
  refine (execute_leadsTo_lenCheck hok hts).trans (n := 3) ?_
  refine .line hok nofun (t := ((s.setPhase .check).setRsp noFrame).onLine q (.execute w .setMarshal)) ?_ fun _ => if_neg hlen
  refine .line hok nofun (t := ((s.setRsp noFrame).setPhase .marshal).onLine q (.execute w .build)) ?_ fun _ => rfl
  exact .single hok nofun fun _ => rfl

theorem execute_endsIn_badLength (hok : ∀ x, ok x = true → x.isCtrl = true) (hts : s.tstate ≠ .failed)
    (hlen : s.respLen.toNat < 4 ∨ s.params.rxBufSize < s.respLen.toNat) :
    EndsIn ok 4 (s.onLine q (firstLine (.execute w)))
      (· = ((s.setPhase .check).setRsp noFrame).complete .badLength) :=
  (execute_leadsTo_lenCheck hok hts).endsIn (m := 1) <| .line hok nofun (.complete rfl) fun _ => if_pos hlen

theorem execute_endsIn_tooLarge (hok : ∀ x, ok x = true → x.isCtrl = true) (hts : s.tstate ≠ .failed)
    (hlen : ¬(s.respLen.toNat < 4 ∨ s.params.rxBufSize < s.respLen.toNat)) (hf : s.commandFrame = none) :
    EndsIn ok 7 (s.onLine q (firstLine (.execute w)))
      (· = ((s.setRsp noFrame).setPhase .marshal).complete .frameTooLarge) := by
  refine (execute_leadsTo_check hok hts hlen).endsIn (m := 1) ?_
  rw [hf]
  exact .line hok nofun (.complete rfl) fun _ => rfl

end

/-- Settles O30: the three checks, each passed before the next is made. -/
theorem executeChecksBeforeTheBus : Obligations.ExecuteChecksBeforeTheBus := by
  intro s w code hstart hturns hlen hcode hne
  split_ifs at hcode with hts hresp hf
  · have hi : Instr.execute w ∈ [.busWrite, .busRead, .execute false, .execute true, .sleep false, .sleep true] := by
      cases w <;> simp
    obtain ⟨_, left, hrun, rfl⟩ := exec_of_endsIn hstart hturns (show 3 ≤ _ by omega) fun q => endsIn_seqError (q := q) hi hts
    exact ⟨_, hrun, by rw [hcode]; rfl⟩
  · obtain ⟨_, left, hrun, rfl⟩ := exec_of_endsIn hstart hturns (show 4 ≤ _ by omega) fun q =>
      execute_endsIn_badLength (q := q) (fun _ => id) hts hresp
    exact ⟨_, hrun, by rw [hcode]; rfl⟩
  · obtain ⟨_, left, hrun, rfl⟩ := exec_of_endsIn hstart hturns (show 7 ≤ _ by omega) fun q =>
      execute_endsIn_tooLarge (q := q) (fun _ => id) hts hresp hf
    exact ⟨_, hrun, by rw [hcode]; rfl⟩
  · exact absurd hcode hne

end Sys2Proof.Machine
end

section
/-! Every command ends: a bound on the controller's steps still to come, which each answered step lowers (43_transaction R210,
60_exceptions R268; a line a step, log 2). -/

namespace Sys2Proof.Machine

/-! ## Steps left inside a primitive -/

/-- Steps left in `SendByte`. -/
def SendPos.left : SendPos → Nat
  | .send => 4
  | .ifAck _ => 3
  | .ifNack _ => 2
  | .ifLost => 1

/-- Steps left in `BusWrite` of `len` bytes. COMMFAIL returns with at least five of them unused. -/
def WritePos.left (len : Nat) : WritePos → Nat
  | .start => 3 * len + 16
  | .addr p => 3 * len + 11 + p.left
  | .setAddrW => 3 * len + 13
  | .forBytes rest => 3 * rest.length + 6
  | .byte _ rest p => 3 * rest.length + 4 + p.left
  | .setDataSent => 5
  | .stop => 4
  | .setStopSent => 3
  | .setIdle => 2
  | .retOk => 1

/-- Steps left in `BusRead`. -/
def ReadPos.left : ReadPos → Nat
  | .start => 23
  | .addrW p => 18 + p.left
  | .setAddrW => 20
  | .forBytes rest => 3 * rest.length + 13
  | .byte _ rest p => 3 * rest.length + 11 + p.left
  | .setDataSent => 12
  | .setRstartPending => 11
  | .rstart => 10
  | .addrR p => 5 + p.left
  | .setAddrR => 7
  | .rdbytes => 6
  | .lenCheck _ => 5
  | .setDataReceived _ => 4
  | .stop _ => 3
  | .setIdle _ => 2
  | .retOk _ => 1

/-- Steps left in `Resync`. -/
def ResyncPos.left : ResyncPos → Nat
  | .start => 6
  | .startAgain => 5
  | .dummy => 4
  | .stop => 3
  | .setFailed | .setIdle => 2
  | .retHeld | .retOk => 1

/-- Steps left in `WriteWithRetry` of `len` bytes, with k = RETRIES, and in what follows it, at most `after` steps: an attempt that
fails has at most 3 len + 22. -/
def RetryPos.left (k len after : Nat) (p : RetryPos) : Nat :=
  match p.line with
  | .head => (2 + k - p.attempt) * (3 * len + 22) + after
  | .setWrite => (1 + k - p.attempt) * (3 * len + 22) + after + (3 * len + 21)
  | .setAttempts => (1 + k - p.attempt) * (3 * len + 22) + after + (3 * len + 20)
  | .write w => (1 + k - p.attempt) * (3 * len + 22) + after + 3 + w.left len
  | .setResync => (1 + k - p.attempt) * (3 * len + 22) + after + 7
  | .resync q => (1 + k - p.attempt) * (3 * len + 22) + after + q.left
  | .exhausted => 2

/-- One step less, wherever a primitive is: inside it `left` is lower, and `ret` says how much was left at its return. -/
def Lowers {P R : Type} (left : P → Nat) (ret : R → Nat) (n : Nat) : State × Flow P R → Prop :=
  Flow.Post (fun p _ => left p < n) (fun r _ => ret r < n)

section
variable {b : Byte} {s : State} (r : BusReply)

theorem sendByteStep_lowers (p : SendPos) :
    Lowers SendPos.left (fun ok => if ok then 2 else 0) p.left (sendByteStep b p (some r) s) := by
  cases p with
  | send => exact Nat.lt_succ_self 3
  | ifAck a => cases a <;> exact Nat.lt_succ_self 2
  | ifNack a => cases a with
    | nack => exact Nat.succ_pos 1
    | ack | lost => exact Nat.lt_succ_self 1
  | ifLost => exact Nat.one_pos

theorem startTransfer_lowers {P R : Type} {here granted : P} {fail : R} {left : P → Nat} {ret : R → Nat} {n : Nat}
    (hgranted : left granted < n) (hfail : ret fail < n) :
    Lowers left ret n (startTransfer (some r) here granted fail s) := by
  rw [startTransfer, onBus_some]
  cases r.start with
  | ok => exact hgranted
  | held => exact hfail

/-- Inside `SendByte`, `rest` steps follow an acknowledged byte, and COMMFAIL ends the transfer. -/
theorem sendOrFail_lowers {P R : Type} {inside : SendPos → P} {sent : P} {fail : R} {left : P → Nat} {ret : R → Nat} {n : Nat}
    (p : SendPos) (hinside : ∀ p, left (inside p) = n + p.left) (hsent : left sent < n + 3) (hfail : ret fail ≤ n) :
    Lowers left ret (n + p.left) (sendOrFail b p (some r) inside sent fail s) := by
  refine (sendByteStep_lowers (b := b) (s := s) r p).inCall (fun p' t h => ?_) fun ok t h => ?_
  · rw [hinside]
    omega
  · cases ok with
    | true =>
      change left sent < n + p.left
      simp only [if_true] at h
      omega
    | false =>
      change ret fail < n + p.left
      simp at h
      omega

theorem busWriteStep_lowers (wa : Half) (payload : List Byte) (p : WritePos) :
    Lowers (WritePos.left payload.length) (fun ok => if ok then 0 else 4) (p.left payload.length)
      (busWriteStep wa payload p (some r) s) := by
  cases p with
  | start => exact startTransfer_lowers r (Nat.lt_succ_self _) (by simp [WritePos.left])
  | addr p => exact sendOrFail_lowers r p (fun _ => rfl) (by simp [WritePos.left]) (by simp)
  | byte b rest p => exact sendOrFail_lowers r p (fun _ => rfl) (by simp [WritePos.left]) (by simp)
  | setAddrW =>
    change 3 * (be16 wa ++ payload).length + 6 < _
    simp [WritePos.left]
    omega
  | forBytes l => cases l with
    | nil => exact Nat.lt_succ_self 5
    | cons b rest =>
      change 3 * rest.length + 4 + 4 < 3 * (rest.length + 1) + 6
      omega
  | setDataSent | stop | setStopSent | setIdle => exact Nat.lt_succ_self _
  | retOk => exact Nat.one_pos

theorem busReadStep_lowers (wa : Half) (n : Nat) (p : ReadPos) :
    Lowers ReadPos.left (fun _ => 0) p.left (busReadStep wa n p (some r) s) := by
  cases p with
  | start => exact startTransfer_lowers r (Nat.lt_succ_self _) (Nat.succ_pos _)
  | addrW p => exact sendOrFail_lowers r p (fun _ => rfl) (Nat.lt_succ_self 20) (Nat.zero_le _)
  | byte b rest p => exact sendOrFail_lowers r p (fun _ => rfl) (by simp [ReadPos.left]) (Nat.zero_le _)
  | addrR p => exact sendOrFail_lowers r p (fun _ => rfl) (Nat.lt_succ_self 7) (Nat.zero_le _)
  | forBytes l => cases l with
    | nil => exact Nat.lt_succ_self 12
    | cons b rest =>
      change 3 * rest.length + 11 + 4 < 3 * (rest.length + 1) + 13
      omega
  | rstart =>
    rw [busReadStep, onBus_some]
    cases r.rstart with
    | ok => exact Nat.lt_succ_self 9
    | lost => exact Nat.succ_pos _
  | lenCheck v =>
    rw [busReadStep]
    split
    · exact Nat.succ_pos _
    · exact Nat.lt_succ_self 4
  | setAddrW | setDataSent | setRstartPending | setAddrR | rdbytes | setDataReceived v | stop v | setIdle v =>
    exact Nat.lt_succ_self _
  | retOk v => exact Nat.one_pos

theorem resyncStep_lowers (p : ResyncPos) :
    Lowers ResyncPos.left (fun _ => 0) p.left (resyncStep p (some r) s) := by
  cases p with
  | start =>
    rw [resyncStep, onBus_some]
    cases r.start <;> simp [Lowers, Flow.Post, ResyncPos.left]
  | startAgain =>
    rw [resyncStep, onBus_some]
    cases r.start <;> simp [Lowers, Flow.Post, ResyncPos.left]
  | dummy | stop | setFailed | setIdle => exact Nat.lt_succ_self _
  | retHeld | retOk => exact Nat.one_pos

/-- One attempt more and one less behind it. -/
theorem attempts_left_succ {k a : Nat} (h : a ≤ 1 + k) (c : Nat) : (2 + k - a) * c = (1 + k - a) * c + c := by
  rw [show 2 + k - a = (1 + k - a) + 1 by omega, Nat.succ_mul]

/-- `WriteWithRetry` returns OK with `after` steps left, and a failure with at least one. -/
theorem retryStep_lowers {f : List Byte} {after : Nat} (hafter : 3 ≤ after) (p : RetryPos) :
    Lowers (RetryPos.left s.snapRetries f.length after) (fun w => if w = .ok then after else 1)
      (p.left s.snapRetries f.length after) (retryStep f p (some r) s) := by
  obtain ⟨a, l⟩ := p
  cases l with
  | head =>
    by_cases ha : a ≤ 1 + s.snapRetries
    · simp only [retryStep, if_pos ha, Lowers, Flow.Post, RetryPos.left, attempts_left_succ ha]
      omega
    · simp only [retryStep, if_neg ha, Lowers, Flow.Post, RetryPos.left]
      omega
  | setWrite | setAttempts | setResync =>
    simp only [retryStep, Lowers, Flow.Post, RetryPos.left, WritePos.left, ResyncPos.left]
    omega
  | write w =>
    refine (busWriteStep_lowers (s := s) r s.ioaddr f w).inCall (fun w' t h => ?_) fun ok t h => ?_
    · exact Nat.add_lt_add_left h _
    · cases ok with
      | true =>
        change after < _ + after + 3 + _
        omega
      | false =>
        change (1 + s.snapRetries - a) * (3 * f.length + 22) + after + 7 <
          (1 + s.snapRetries - a) * (3 * f.length + 22) + after + 3 + w.left f.length
        simp at h
        omega
  | resync q =>
    refine (resyncStep_lowers (s := s) r q).inCall (fun q' t h => ?_) fun ok t h => ?_
    · exact Nat.add_lt_add_left h _
    · cases ok with
      | true =>
        change (2 + s.snapRetries - (a + 1)) * _ + after < (1 + s.snapRetries - a) * _ + after + q.left
        rw [show 2 + s.snapRetries - (a + 1) = 1 + s.snapRetries - a by omega]
        omega
      | false =>
        change 1 < _ + after + q.left
        omega
  | exhausted => exact Nat.lt_succ_self 1

end

/-! ## Steps left in a command -/

/-- Steps left in the command write of `len` bytes and in what follows it. -/
def writeLeft (k len : Nat) : Nat := (1 + k) * (3 * len + 22) + 67

/-- Steps left in a command at a position, its completion step included: k is the snapshotted RETRIES, `cmdMax` MAX_CMD_SIZE,
`frame` FRAME_LEN and `wr` WR_LEN. -/
def Pos.left (k cmdMax frame wr : Nat) : Pos → Nat
  | .accepted => 0
  | .complete _ => 1
  | .crc _ l => match l with
    | .setPhase => 6
    | .setSource => 5
    | .check _ => 4
    | .compute => 3
    | .store _ => 2
  | .marshal l => match l with
    | .setPhase => 7
    | .build => 6
    | .check _ => 5
    | .getLen _ => 4
    | .store _ _ => 3
    | .setLen _ => 2
  | .unmarshal l => match l with
    | .setPhase => 8
    | .clearRsp => 7
    | .getLen => 6
    | .check _ => 5
    | .run _ => 4
    | .checkFrame _ _ => 3
    | .apply _ _ => 2
  | .busWrite l => match l with
    | .setCheck => 3 * cmdMax + 22
    | .seqCheck => 3 * cmdMax + 21
    | .lenCheck => 3 * cmdMax + 20
    | .setPhase => 3 * wr + 19
    | .transfer p => 2 + p.left wr
    | .result _ => 2
  | .busRead l => match l with
    | .setCheck => 33
    | .seqCheck => 32
    | .lenCheck => 31
    | .setPhase => 30
    | .getLen => 29
    | .transfer _ p => 5 + p.left
    | .result _ _ => 5
    | .bind _ _ => 4
    | .store _ _ => 3
    | .clearLen | .setLen _ => 2
  | .resync l => match l with
    | .setPhase => 8
    | .run p => 1 + p.left
  | .wake l => match l with
    | .setPhase => 3
    | .pulse => 2
  | .sleep _ l => match l with
    | .setCheck => writeLeft k cmdMax + 6
    | .seqCheck => writeLeft k cmdMax + 5
    | .setMarshal => writeLeft k cmdMax + 4
    | .setMode => writeLeft k cmdMax + 3
    | .build _ => writeLeft k cmdMax + 2
    | .store f => writeLeft k f.length + 1
    | .write p => p.left k frame 67
    | .result w => if w = .ok then 67 else 1
  | .execute _ l => match l with
    | .setCheck => writeLeft k cmdMax + 11
    | .clearRsp => writeLeft k cmdMax + 10
    | .seqCheck => writeLeft k cmdMax + 9
    | .lenCheck => writeLeft k cmdMax + 8
    | .setMarshal => writeLeft k cmdMax + 7
    | .build => writeLeft k cmdMax + 6
    | .check none => 1
    | .check (some f) => writeLeft k f.length + 5
    | .store f => writeLeft k f.length + 4
    | .ifWake => writeLeft k frame + 3
    | .setWake => writeLeft k frame + 2
    | .pulse => writeLeft k frame + 1
    | .write p => p.left k frame 67
    | .result w => if w = .ok then 67 else 1
    | .setWait => 66
    | .wait => 65
    | .setReadCount => 64
    | .readCount p => 40 + p.left
    | .countResult _ => 40
    | .bindCount _ => 39
    | .storeCount _ => 38
    | .shortCheck _ => 37
    | .longCheck _ => 36
    | .setReadBody _ => 35
    | .ifContinue _ => 34
    | .readBody _ p => 10 + p.left
    | .bodyResult _ _ => 10
    | .bindBody _ _ => 9
    | .storeBody _ _ => 8
    | .restartCheck _ _ => 7
    | .setUnmarshal _ => 6
    | .unmarshal _ => 5
    | .checkFrame _ _ => 4
    | .apply _ _ => 3
    | .failClearLen => 9
    | .failSetResync => 8
    | .failResync p => 1 + p.left

/-- Steps left in the running command, were it at p. -/
def State.leftAt (s : State) (p : Pos) : Nat :=
  p.left s.snapRetries s.params.maxCmdSize s.frameLen.toNat s.wrLen.toNat

/-- The running command is at a line of its own with fewer than n steps left, or has just completed. -/
inductive Progress (n : Nat) : State → Prop where
  | running {s : State} {q : Seq} : s.seq = some q → q.pos ≠ .accepted → s.leftAt q.pos < n → Progress n s
  | completed (s : State) (code : ResultCode) : Progress n (s.complete code)

section
variable {n : Nat} {s : State} {p : Pos} {c : Prop} [Decidable c] {code : ResultCode}

theorem Progress.goto (hseq : s.seq.isSome = true) (hp : p ≠ .accepted) (h : s.leftAt p < n) : Progress n (s.goto p) := by
  obtain ⟨q, hq⟩ := Option.isSome_iff_exists.1 hseq
  refine .running (q := { q with pos := p }) (by simp [hq]) hp ?_
  rwa [State.leftAt, State.goto_snapRetries]

theorem Progress.completeOrGoto (hseq : s.seq.isSome = true) (hp : p ≠ .accepted) (h : ¬c → s.leftAt p < n) :
    Progress n (if c then s.complete code else s.goto p) := by
  split
  · exact .completed s code
  · next hc => exact .goto hseq hp (h hc)

theorem Progress.gotoOrComplete (hseq : s.seq.isSome = true) (hp : p ≠ .accepted) (h : c → s.leftAt p < n) :
    Progress n (if c then s.goto p else s.complete code) := by
  split
  · next hc => exact .goto hseq hp (h hc)
  · exact .completed s code

/-- A line that calls a primitive. -/
theorem Progress.callLine {P A : Type} {left : P → Nat} {ret : A → Nat} {x : State × Flow P A} {inside : P → Pos}
    {k : A → State → State} {m : Nat} (hx : Lowers left ret m x) (hseq : x.1.seq.isSome = true)
    (hp : ∀ p, inside p ≠ .accepted) (hin : ∀ p, left p < m → x.1.leftAt (inside p) < n)
    (hk : ∀ a, ret a < m → Progress n (k a x.1)) : Progress n (callLine x inside k) := by
  obtain ⟨t, p | a⟩ := x
  · exact .goto hseq (hp p) (hin p hx)
  · exact hk a hx

/-- The same for a bus primitive, which changes nothing that the steps left depend on. -/
theorem Progress.busCall {P A : Type} {left : P → Nat} {ret : A → Nat} {x : State × Flow P A} {inside : P → Pos}
    {k : A → State → State} {m : Nat} (hx : Lowers left ret m x) (hframe : BusFrame s x.1) (hseq : s.seq.isSome = true)
    (hp : ∀ p, inside p ≠ .accepted) (hin : ∀ p, left p < m → s.leftAt (inside p) < n)
    (hk : ∀ a t, t.seq.isSome = true → ret a < m → t.leftAt = s.leftAt → Progress n (k a t)) :
    Progress n (Machine.callLine x inside k) := by
  obtain ⟨pd, tr, ts, he⟩ := hframe
  refine .callLine hx (by rw [he]; exact hseq) hp (fun p h => by rw [he]; exact hin p h) fun a h => ?_
  exact hk a x.1 (by rw [he]; exact hseq) h (by rw [he]; rfl)

/-- The same for the command write, `after` steps following one that returned OK. -/
theorem Progress.writeCall {f : List Byte} {p : RetryPos} {inside : RetryPos → Pos} {k : ResultCode → State → State}
    (r : BusReply) (hlen : f.length = s.frameLen.toNat) (hseq : s.seq.isSome = true) (hp : ∀ p, inside p ≠ .accepted)
    (hin : ∀ p, s.leftAt (inside p) = p.left s.snapRetries s.frameLen.toNat 67)
    (hk : ∀ w t, t.seq.isSome = true → t.leftAt = s.leftAt →
      (if w = .ok then 67 else 1) < p.left s.snapRetries s.frameLen.toNat 67 →
      Progress (p.left s.snapRetries s.frameLen.toNat 67) (k w t)) :
    Progress (p.left s.snapRetries s.frameLen.toNat 67) (Machine.callLine (retryStep f p (some r) s) inside k) := by
  have hx := retryStep_lowers (f := f) (s := s) (after := 67) r (by omega) p
  rw [hlen] at hx
  obtain ⟨pd, tr, ts, ph, a, he⟩ := retryStep_frame f p (some r) s
  refine .callLine hx (by rw [he]; exact hseq) hp (fun p' h => ?_) fun w h => ?_
  · rw [he]
    exact (hin p').trans_lt h
  · exact hk w _ (by rw [he]; exact hseq) (by rw [he]; rfl) h

end

/-! ## The lines of each command -/

theorem writeLeft_mono {k m n : Nat} (h : m ≤ n) : writeLeft k m ≤ writeLeft k n := by
  unfold writeLeft
  gcongr

/-- The command write from its first line. -/
theorem retryStart_left (k len : Nat) : retryStart.left k len 67 = writeLeft k len := by
  simp [retryStart, RetryPos.left, writeLeft, show 2 + k - 1 = 1 + k by omega]

/-- FRAME_LEN is at most the length of the frame just stored. -/
theorem State.setFrameLen_le (s : State) (n : Nat) : (s.setFrameLen n).frameLen.toNat ≤ n := by
  simp only [State.setFrameLen_frameLen, BitVec.toNat_ofNat]
  exact Nat.mod_le n _

section
variable {s : State} (hseq : s.seq.isSome = true)
include hseq

theorem crcLine_progress (src : Buf) (l : CrcLine) : Progress (s.leftAt (.crc src l)) (crcLine src l s) := by
  cases l with
  | check size => exact .completeOrGoto hseq nofun fun _ => Nat.lt_succ_self _
  | setPhase | setSource | compute | store c => exact .goto hseq nofun (Nat.lt_succ_self _)

theorem marshalLine_progress (l : MarshalLine) : Progress (s.leftAt (.marshal l)) (marshalLine l s) := by
  cases l with
  | check r => cases r with
    | none => exact .completed s _
    | some f => exact .goto hseq nofun (Nat.lt_succ_self _)
  | store f n => exact .goto (by simpa using hseq) nofun (Nat.lt_succ_self _)
  | setPhase | build | getLen f | setLen n => exact .goto hseq nofun (Nat.lt_succ_self _)

theorem unmarshalLine_progress (l : UnmarshalLine) : Progress (s.leftAt (.unmarshal l)) (unmarshalLine l s) := by
  cases l with
  | check n => exact .completeOrGoto hseq nofun fun _ => Nat.lt_succ_self _
  | checkFrame n v => cases v with
    | valid status => exact .goto hseq nofun (Nat.lt_succ_self _)
    | frameShort | crcError | frameCountError => exact .completed s _
  | setPhase | clearRsp | getLen | run n | apply n status => exact .goto hseq nofun (Nat.lt_succ_self _)

theorem busWriteLine_progress (l : BusWriteLine) (r : BusReply) :
    Progress (s.leftAt (.busWrite l)) (busWriteLine l (some r) s) := by
  cases l with
  | setCheck => exact .goto hseq nofun (Nat.lt_succ_self _)
  | setPhase =>
    refine .goto hseq nofun ?_
    change 2 + (3 * s.wrLen.toNat + 16) < 3 * s.wrLen.toNat + 19
    omega
  | seqCheck => exact .completeOrGoto hseq nofun fun _ => Nat.lt_succ_self _
  | lenCheck =>
    refine .completeOrGoto hseq nofun fun h => ?_
    change 3 * s.wrLen.toNat + 19 < 3 * s.params.maxCmdSize + 20
    omega
  | transfer p =>
    have hx := busWriteStep_lowers (s := s) r s.waddr (s.bufSlice .txbuf 0 s.wrLen.toNat) p
    rw [State.bufSlice_length] at hx
    refine .busCall hx (busWriteStep_frame ..) hseq nofun (fun p' h => Nat.add_lt_add_left h 2) fun ok t ht h hleft => ?_
    refine .goto ht nofun ?_
    rw [hleft]
    exact Nat.lt_add_of_pos_right (Nat.zero_lt_of_lt h)
  | result ok => cases ok with
    | true => exact .goto hseq nofun (Nat.lt_succ_self _)
    | false => exact .completed s _

theorem busReadLine_progress (l : BusReadLine) (r : BusReply) :
    Progress (s.leftAt (.busRead l)) (busReadLine l (some r) s) := by
  cases l with
  | seqCheck | lenCheck => exact .completeOrGoto hseq nofun fun _ => Nat.lt_succ_self _
  | transfer n p =>
    refine .busCall (busReadStep_lowers (s := s) r s.waddr n p) (busReadStep_frame ..) hseq (fun _ => nofun)
      (fun p' h => Nat.add_lt_add_left h 5) fun v t ht h hleft => ?_
    refine .goto ht nofun ?_
    rw [hleft]
    exact Nat.lt_add_of_pos_right h
  | result n v => cases v with
    | none => exact .goto hseq nofun (by simp [State.leftAt, Pos.left])
    | some v => exact .goto hseq nofun (Nat.lt_succ_self _)
  | store n v => exact .goto (by simpa using hseq) nofun (Nat.lt_succ_self _)
  | setCheck | setPhase | getLen | clearLen | bind n v | setLen n => exact .goto hseq nofun (Nat.lt_succ_self _)

/-- After a resync: one step more, or completion. -/
theorem Progress.afterResync {n : Nat} (ok : Bool) (code : ResultCode) (hn : 1 < n) :
    Progress n (if ok then s.goto (.complete code) else s.complete .resyncFail) := by
  cases ok with
  | true => exact .goto hseq nofun hn
  | false => exact .completed s _

theorem resyncLine_progress (l : ResyncLine) (r : BusReply) :
    Progress (s.leftAt (.resync l)) (resyncLine l (some r) s) := by
  cases l with
  | setPhase => exact .goto hseq nofun (Nat.lt_succ_self _)
  | run p =>
    refine .busCall (resyncStep_lowers (s := s) r p) (resyncStep_frame ..) hseq nofun
      (fun p' h => Nat.add_lt_add_left h 1) fun ok t ht h _ => ?_
    exact .afterResync ht ok .ok (Nat.lt_add_of_pos_right h)

theorem wakeLine_progress (l : WakeLine) (r : BusReply) : Progress (s.leftAt (.wake l)) (wakeLine l (some r) s) := by
  cases l with
  | setPhase | pulse => exact .goto hseq nofun (Nat.lt_succ_self _)

theorem sleepLine_progress (hmin : 9 ≤ s.params.maxCmdSize) (idle : Bool) (l : SleepLine) (r : BusReply) :
    Progress (s.leftAt (.sleep idle l)) (sleepLine idle l (some r) s) := by
  cases l with
  | setCheck | setMarshal => exact .goto hseq nofun (Nat.lt_succ_self _)
  | seqCheck => exact .completeOrGoto hseq nofun fun _ => Nat.lt_succ_self _
  | setMode => exact .goto hseq nofun (Nat.lt_succ_self _)
  | build m =>
    have hlen : (oneWayFrame s.params m).length ≤ s.params.maxCmdSize := by simpa [oneWayFrame_eq] using hmin
    exact .goto hseq nofun (Nat.add_lt_add_of_le_of_lt (writeLeft_mono hlen) (Nat.lt_succ_self 1))
  | store f =>
    refine .goto (by simpa using hseq) nofun ?_
    have := writeLeft_mono (k := s.snapRetries) ((s.setBufBytes .txbuf 0 f).setFrameLen_le f.length)
    have hk : ((s.setBufBytes .txbuf 0 f).setFrameLen f.length).snapRetries = s.snapRetries := by
      simp [State.snapRetries]
    change RetryPos.left _ _ 67 retryStart < writeLeft _ f.length + 1
    rw [retryStart_left, hk]
    omega
  | write p =>
    refine .writeCall r (s.bufSlice_length ..) hseq nofun (fun _ => rfl) fun w t ht hleft h => ?_
    refine .goto ht nofun ?_
    rw [hleft]
    exact h
  | result w =>
    refine .gotoOrComplete hseq nofun fun h => ?_
    subst h
    exact (by decide : 1 < 67)

theorem executeLine_progress (hlegal : s.params.legal = true) (wakeFirst : Bool) (l : ExecuteLine) (r : BusReply) :
    Progress (s.leftAt (.execute wakeFirst l)) (executeLine wakeFirst l (some r) s) := by
  cases l with
  | setCheck | clearRsp | setMarshal | setWake | setWait | wait | setReadCount | bindCount v | setReadBody c | ifContinue c
  | bindBody c v | setUnmarshal c | unmarshal c | failClearLen | failSetResync =>
    exact .goto hseq nofun (Nat.lt_succ_self _)
  | seqCheck | lenCheck | shortCheck c | longCheck c | restartCheck c v =>
    exact .completeOrGoto hseq nofun fun _ => Nat.lt_succ_self _
  | build =>
    refine .goto hseq nofun ?_
    cases hf : s.commandFrame with
    | none => exact Nat.lt_add_left _ (by decide : 1 < 6)
    | some f =>
      have hfits : f.length ≤ s.params.maxCmdSize := by simpa [Buf.size] using State.commandFrame_fits_txbuf hlegal hf
      exact Nat.add_lt_add_of_le_of_lt (writeLeft_mono hfits) (Nat.lt_succ_self 5)
  | check v => cases v with
    | none => exact .completed s _
    | some f => exact .goto hseq nofun (Nat.lt_succ_self _)
  | store f =>
    refine .goto (by simpa using hseq) nofun ?_
    have := writeLeft_mono (k := s.snapRetries) ((s.setBufBytes .txbuf 0 f).setFrameLen_le f.length)
    have hk : ((s.setBufBytes .txbuf 0 f).setFrameLen f.length).snapRetries = s.snapRetries := by
      simp [State.snapRetries]
    change writeLeft _ _ + 3 < writeLeft _ f.length + 4
    rw [hk]
    omega
  | ifWake =>
    cases wakeFirst with
    | true => exact .goto hseq nofun (Nat.lt_succ_self _)
    | false =>
      refine .goto hseq nofun ?_
      change RetryPos.left _ _ 67 retryStart < writeLeft _ _ + 3
      rw [retryStart_left]
      omega
  | pulse =>
    refine .goto hseq nofun ?_
    change RetryPos.left _ _ 67 retryStart < writeLeft _ _ + 1
    rw [retryStart_left]
    exact Nat.lt_succ_self _
  | write p =>
    refine .writeCall r (s.bufSlice_length ..) hseq nofun (fun _ => rfl) fun w t ht hleft h => ?_
    refine .goto ht nofun ?_
    rw [hleft]
    exact h
  | result w =>
    refine .gotoOrComplete hseq nofun fun h => ?_
    subst h
    exact (by decide : 66 < 67)
  | readCount p =>
    refine .busCall (busReadStep_lowers (s := s) r s.ioaddr 1 p) (busReadStep_frame ..) hseq (fun _ => nofun)
      (fun p' h => Nat.add_lt_add_left h 40) fun v t ht h hleft => ?_
    refine .goto ht nofun ?_
    rw [hleft]
    exact Nat.lt_add_of_pos_right h
  | readBody c p =>
    refine .busCall (busReadStep_lowers (s := s) r s.ioaddr _ p) (busReadStep_frame ..) hseq (fun _ => nofun)
      (fun p' h => Nat.add_lt_add_left h 10) fun v t ht h hleft => ?_
    refine .goto ht nofun ?_
    rw [hleft]
    exact Nat.lt_add_of_pos_right h
  | countResult v => cases v with
    | none => exact .goto hseq nofun (by simp [State.leftAt, Pos.left])
    | some v => exact .goto hseq nofun (Nat.lt_succ_self _)
  | bodyResult c v => cases v <;> exact .goto hseq nofun (Nat.lt_succ_self _)
  | storeCount c => exact .goto (s := (s.setBufByte .rxbuf 0 c).setRxLen 1) (by simpa using hseq) nofun (Nat.lt_succ_self _)
  | storeBody c v =>
    simp only [executeLine]
    split
    · exact .goto (s := (s.setBufBytes .rxbuf 1 v).setRxLen c.toNat) (by simpa using hseq) nofun
        (by simp [State.leftAt, Pos.left])
    · exact .goto (s := (s.setBufBytes .rxbuf 0 v).setRxLen c.toNat) (by simpa using hseq) nofun (Nat.lt_succ_self _)
  | checkFrame c v => cases v with
    | valid status => exact .goto hseq nofun (Nat.lt_succ_self _)
    | frameShort | crcError | frameCountError => exact .completed s _
  | apply c status => exact .goto hseq nofun (by simp [State.leftAt, Pos.left])
  | failResync p =>
    refine .busCall (resyncStep_lowers (s := s) r p) (resyncStep_frame ..) hseq nofun
      (fun p' h => Nat.add_lt_add_left h 1) fun ok t ht h _ => ?_
    exact .afterResync ht ok .commFail (Nat.lt_add_of_pos_right h)

/-- An answered step of any line. -/
theorem lineStep_progress (hlegal : s.params.legal = true) {p : Pos} (hp : p ≠ .accepted) (r : BusReply) :
    Progress (s.leftAt p) (lineStep p (some r) s) := by
  cases p with
  | accepted => exact absurd rfl hp
  | crc src l => exact crcLine_progress hseq src l
  | marshal l => exact marshalLine_progress hseq l
  | unmarshal l => exact unmarshalLine_progress hseq l
  | busWrite l => exact busWriteLine_progress hseq l r
  | busRead l => exact busReadLine_progress hseq l r
  | resync l => exact resyncLine_progress hseq l r
  | execute wakeFirst l => exact executeLine_progress hseq hlegal wakeFirst l r
  | wake l => exact wakeLine_progress hseq l r
  | sleep idle l => exact sleepLine_progress hseq (Params.maxCmdSize_bounds hlegal).1 idle l r
  | complete code => exact .completed s code

end

/-! ## Runs that end (43_transaction R210, 60_exceptions R268) -/

/-- No command runs, and the last one completed (60_exceptions R242). -/
def State.Completed (s : State) : Prop := s.seq = none ∧ s.busy = false ∧ s.done = true ∧ s.phase = .idle

/-- With no command running, whatever moves are left. -/
theorem State.Completed.runTurns {s : State} (h : s.Completed) (ts : List Turn) : (State.runTurns ts s).Completed := by
  rw [State.runTurns_idle h.1]
  exact h

/-- A host access to a busy controller changes nothing that the steps left depend on (20_memory R75). -/
theorem State.access_left {s : State} (hbusy : s.busy = true) (a : Access) :
    (s.access a).seq = s.seq ∧ (s.access a).busy = true ∧ (s.access a).params = s.params ∧
      (s.access a).leftAt = s.leftAt := by
  obtain ⟨ie, rt, d, o, l, n, he⟩ := State.access_busy hbusy a
  rw [he]
  exact ⟨rfl, hbusy, rfl, rfl⟩

/-- A command that runs in s, has fewer than n steps left and is answered n times completes, whatever else is done. -/
theorem completed_of_left {ts : List Turn} {s : State} {q : Seq} {n : Nat} (hq : s.seq = some q) (hp : q.pos ≠ .accepted)
    (hbusy : s.busy = true) (hlegal : s.params.legal = true) (hleft : s.leftAt q.pos < n)
    (hts : ts.all Turn.notReset = true) (hn : n ≤ (ts.filter Turn.answered).length) : (State.runTurns ts s).Completed := by
  induction ts generalizing s q n with
  | nil => exact absurd hn (Nat.not_le.2 (Nat.zero_lt_of_lt hleft))
  | cons x rest ih =>
    simp only [List.all_cons, Bool.and_eq_true] at hts
    obtain ⟨hx, hrest⟩ := hts
    have hseq : s.seq.isSome = true := by simp [hq]
    have answered : ∀ r k, s.leftAt q.pos ≤ k → k ≤ (rest.filter Turn.answered).length →
        (State.runTurns rest (lineStep q.pos (some r) s)).Completed := by
      intro r k hk hkn
      have hb := (whileRunning_lineInvariant fun busy _ => busy = true).lineStep q.pos (some r) fun _ => hbusy
      have hl := lineStep_params q.pos (some r) s
      have progress := lineStep_progress hseq hlegal hp r
      generalize lineStep q.pos (some r) s = t at hb hl progress
      cases progress with
      | completed u code => exact State.Completed.runTurns ⟨rfl, rfl, rfl, rfl⟩ rest
      | running hq' hp' hlt => exact ih hq' hp' (hb (by simp [hq'])) (hl ▸ hlegal) (hlt.trans_le hk) hrest hkn
    cases x with
    | reset => cases hx
    | host a =>
      obtain ⟨hq', hb', hl', hleft'⟩ := State.access_left (s := { s with turns := rest }) hbusy a
      rw [State.runTurns_running hq]
      exact ih (hq'.trans hq) hp hb' ((congrArg Params.legal hl').trans hlegal) ((congrFun hleft' _).trans_lt hleft) hrest hn
    | ctrl reply =>
      rw [State.runTurns_ctrl hq hp]
      cases reply with
      | some r => exact answered r (n - 1) (Nat.le_sub_one_of_lt hleft) (Nat.sub_le_of_le_add hn)
      | none =>
        cases ha : s.actionAt q.pos with
        | none =>
          rw [← lineStep_internal ha (some ⟨.ok, .ok, .ack, []⟩)]
          exact answered _ n hleft.le hn
        | some a =>
          rw [lineStep_unanswered (by simp [hq]) ha]
          exact ih (s := s.await a) hq hp hbusy hlegal hleft hrest hn

/-- From its first line a command has fewer than `stepBound` steps left. -/
theorem firstLine_left_lt (i : Instr) (s : State) : s.leftAt (firstLine i) < s.stepBound := by
  have hbound : 3 * s.params.maxCmdSize + 22 + 80 ≤ s.stepBound := by
    have := Nat.mul_le_mul_right (3 * s.params.maxCmdSize + 22) (Nat.le_add_right 1 s.snapRetries)
    unfold State.stepBound
    omega
  have hwrite : writeLeft s.snapRetries s.params.maxCmdSize + 13 = s.stepBound := by
    unfold writeLeft State.stepBound
    omega
  cases i <;> simp only [firstLine, State.leftAt, Pos.left] <;> omega

/-- Settles O42: each answered step lowers the bound, which no other move raises. -/
theorem everyCommandCompletesWhenAnswered : Obligations.EveryCommandCompletesWhenAnswered := by
  intro s i hstart hbusy hlegal hturns hn
  obtain ⟨q, hq, hp⟩ := State.atStart_iff.1 hstart
  refine ⟨_, by rw [exec_eq, State.runCommand_atStart hq hp], ?_⟩
  have hleft : (s.goto (firstLine i)).leftAt (firstLine i) < s.stepBound := by
    rw [State.leftAt, State.goto_snapRetries]
    exact firstLine_left_lt i s
  exact completed_of_left (s := s.goto (firstLine i)) (q := { q with pos := firstLine i }) (by simp [hq])
    (firstLine_ne_accepted i) hbusy hlegal hleft hturns hn

end Sys2Proof.Machine
end

section
/-! Primitives whose steps the environment's answers fix one by one: how many moves they take, and where they stand after them
(42_bus R162 to R165, 43_transaction R199). -/

namespace Sys2Proof.Machine

/-! ## Steps inside a primitive, counted -/

/-- Whatever replies that R allows come, n steps that stay inside the primitive take it from p in s to p' in t. -/
inductive Walks {P A : Type} (step : P → Option BusReply → State → State × Flow P A) (R : BusReply → Bool) :
    Nat → P → State → P → State → Prop where
  | refl (p : P) (s : State) : Walks step R 0 p s p s
  | step {n : Nat} {p p' p'' : P} {s t u : State} : (∀ r, R r = true → step p (some r) s = (t, .at p')) →
      Walks step R n p' t p'' u → Walks step R (n + 1) p s p'' u

section
variable {P A : Type} {step : P → Option BusReply → State → State × Flow P A} {R : BusReply → Bool} {m n : Nat}
  {p p' p'' : P} {s t u : State}

theorem Walks.trans (h : Walks step R m p s p' t) (h' : Walks step R n p' t p'' u) : Walks step R (m + n) p s p'' u := by
  induction h with
  | refl => rwa [Nat.zero_add]
  | step hstep _ ih =>
    rw [Nat.succ_add]
    exact .step hstep (ih h')

/-- A bus step. -/
theorem Walks.bus {a : Action} {e : Event} {tr : List Event} {x : TState}
    (hstep : ∀ r, R r = true → step p (some r) (s.afterBus tr x) = ((s.afterBus tr x).answered a r, .at p'))
    (he : ∀ r, R r = true → a.event r = e) (h : Walks step R n p' (s.afterBus (tr ++ [e]) x) p'' u) :
    Walks step R (n + 1) p (s.afterBus tr x) p'' u :=
  .step (fun r hr => by rw [hstep r hr, State.afterBus_answered, he r hr]) h

/-- Inside a primitive that calls another one; J is what the calling line reads. -/
theorem Walks.inCall {P' B : Type} {caller : P' → Option BusReply → State → State × Flow P' B} {inside : P → P'}
    {k : A → State → State × Flow P' B} {J : State → Prop}
    (hline : ∀ p reply t, J t → caller (inside p) reply t = Machine.inCall (step p reply t) inside k)
    (hJ : ∀ p reply t, J t → J (step p reply t).1) (hs : J s) (hR : ∃ r, R r = true) (h : Walks step R n p s p' t) :
    Walks caller R n (inside p) s (inside p') t := by
  induction h with
  | refl => exact .refl _ _
  | @step n p p' p'' s t u hstep _ ih =>
    obtain ⟨r, hr⟩ := hR
    have ht : J t := by simpa [hstep r hr] using hJ p (some r) s hs
    exact .step (fun r hr => by rw [hline _ _ _ hs, hstep r hr]; rfl) (ih ht)

/-- The moves of a command's line that calls the primitive. -/
theorem LeadsTo.walk {inside : P → Pos} {k : A → State → State} {J : State → Prop} {q : Seq} {v : State}
    (hinside : ∀ p, inside p ≠ .accepted)
    (hline : ∀ p r t, J t → lineStep (inside p) (some r) (t.onLine q (inside p)) = resume q inside k (step p (some r) t))
    (hJ : ∀ p r t, J t → J (step p (some r) t).1) (hs : J s) (h : Walks step R n p s p' t)
    (hv : J t → LeadsTo (Turn.replies R) m (t.onLine q (inside p')) v) :
    LeadsTo (Turn.replies R) (n + m) (s.onLine q (inside p)) v := by
  induction h with
  | refl => rw [Nat.zero_add]; exact hv hs
  | @step n p p' p'' s t u hstep _ ih =>
    rw [Nat.succ_add]
    refine .step (hinside p) fun x hx => ?_
    cases x with
    | host a | reset => cases hx
    | ctrl reply => cases reply with
      | none => cases hx
      | some r =>
        refine ⟨some r, rfl, ?_⟩
        have ht : J t := by simpa [hstep r hx] using hJ p r s hs
        rw [hline p r s hs, hstep r hx]
        exact ih ht hv

end

/-! ## Everything granted and acknowledged -/

theorem BusReply.grants_iff {r : BusReply} : r.grants = true ↔ r.start = .ok ∧ r.rstart = .ok ∧ r.byte = .ack := by
  simp [BusReply.grants, and_assoc]

theorem BusReply.delivers_iff {v : List Byte} {r : BusReply} : r.delivers v = true ↔ r.grants = true ∧ r.data = v := by
  simp [BusReply.delivers]

theorem State.afterBus_afterBus (tr tr' : List Event) (x y : TState) (s : State) :
    (s.afterBus tr x).afterBus tr' y = s.afterBus (tr ++ tr') y := by
  simp [State.afterBus]

/-- Each byte sent and acknowledged. -/
def ackTrace (l : List Byte) : List Event := l.map fun b => .wrbyte b .ack

section
variable {P A : Type} {step : P → Option BusReply → State → State × Flow P A} {R : BusReply → Bool} {s : State}

/-- The first action of a primitive. -/
theorem Walks.start {n : Nat} {p p' p'' : P} {u : State} {x : StartReply}
    (hstep : ∀ r, R r = true → step p (some r) s = (s.answered .start r, .at p')) (hx : ∀ r, R r = true → r.start = x)
    (h : Walks step R n p' (s.afterBus [.start x] s.tstate) p'' u) : Walks step R (n + 1) p s p'' u :=
  .step (fun r hr => by rw [hstep r hr, ← hx r hr]; rfl) h

/-- An acknowledged byte (42_bus R162). -/
theorem sendOrFail_walks {b : Byte} {inside : SendPos → P} {sent : P} {fail : A} (tr : List Event) (x : TState)
    (hstep : ∀ p reply tr x, step (inside p) reply (s.afterBus tr x) = sendOrFail b p reply inside sent fail (s.afterBus tr x))
    (hR : ∀ r, R r = true → r.byte = .ack) :
    Walks step R 2 (inside .send) (s.afterBus tr x) sent (s.afterBus (tr ++ [.wrbyte b .ack]) x) := by
  refine .bus (a := .wrbyte b) (e := .wrbyte b .ack) (p' := inside (.ifAck .ack)) (fun r hr => ?_) (fun r hr => ?_) ?_
  · rw [hstep, ← hR r hr]
    rfl
  · rw [Action.event, hR r hr]
  · exact .step (fun r _ => by rw [hstep]; rfl) (.refl _ _)

namespace WriteHalf

variable {l : List Byte} {fail : A} (w : WriteHalf step l fail) (hR : ∀ r, R r = true → r.byte = .ack)
include hR

/-- The loop over bytes. -/
theorem forBytes_walks (tr : List Event) (x : TState) (rest : List Byte) :
    Walks step R (3 * rest.length + 1) (w.forBytes rest) (s.afterBus tr x) w.next (s.afterBus (tr ++ ackTrace rest) x) := by
  induction rest generalizing tr with
  | nil => simpa [ackTrace] using Walks.step (fun r _ => w.nil_step (some r) (s.afterBus tr x)) (.refl _ _)
  | cons b rest ih =>
    have hbyte := sendOrFail_walks (s := s) (R := R) tr x (fun p reply tr x => w.byte_step b rest p reply _) hR
    have hrest := ih (tr ++ [.wrbyte b .ack])
    simp only [List.append_assoc] at hrest
    have := Walks.step (fun r _ => w.cons_step b rest (some r) (s.afterBus tr x)) (hbyte.trans hrest)
    rwa [show 2 + (3 * rest.length + 1) + 1 = 3 * (b :: rest).length + 1 by simp; omega] at this

/-- Start, the address byte and the bytes. -/
theorem walks (hstart : ∀ r, R r = true → r.start = .ok) : Walks step R (3 * l.length + 5) w.start s w.next
    (s.afterBus (.start .ok :: .wrbyte (addrByte s.devAddr false) .ack :: ackTrace l) .addrW) := by
  refine .start (p' := w.addr .send) (fun r hr => ?_) hstart ?_
  · rw [w.start_step, startTransfer, onBus_some, hstart r hr]
  have haddr := sendOrFail_walks (s := s) (R := R) (b := addrByte s.devAddr false) [.start .ok] s.tstate
    (fun p reply tr x => w.addr_step p reply _) hR
  have hset : Walks step R 1 w.setAddrW (s.afterBus [.start .ok, .wrbyte (addrByte s.devAddr false) .ack] s.tstate)
      (w.forBytes l) (s.afterBus [.start .ok, .wrbyte (addrByte s.devAddr false) .ack] .addrW) :=
    .step (fun r _ => w.setAddrW_step ..) (.refl _ _)
  have := haddr.trans (hset.trans (w.forBytes_walks (s := s) hR _ _ l))
  rwa [show 2 + (1 + (3 * l.length + 1)) = 3 * l.length + 4 by omega] at this

end WriteHalf

end

section
variable {R : BusReply → Bool} {s : State} {wa : Half}

/-- `BusWrite` up to its return (42_bus R163). -/
theorem busWrite_walks (hR : ∀ r, R r = true → r.grants = true) (payload : List Byte) :
    Walks (busWriteStep wa payload) R (3 * payload.length + 15) .start s .retOk
      (s.afterBus (writeTrace s.devAddr wa payload) .idle) := by
  have hgrants := fun r hr => BusReply.grants_iff.1 (hR r hr)
  have hhalf := (busWriteHalf wa payload).walks (s := s) (fun r hr => (hgrants r hr).2.2) fun r hr => (hgrants r hr).1
  refine (show 3 * (be16 wa ++ payload).length + 5 + 4 = 3 * payload.length + 15 by simp; omega) ▸ hhalf.trans ?_
  refine .step (t := s.afterBus _ .dataSent) (p' := .stop) (fun _ _ => rfl) ?_
  refine .bus (a := .stop) (p' := .setStopSent) (fun _ _ => rfl) (fun _ _ => rfl) ?_
  refine .step (t := s.afterBus _ .stopSent) (p' := .setIdle) (fun _ _ => rfl) ?_
  exact .step (fun _ _ => rfl) (.refl _ _)

/-- The events of a read transfer up to the data (30_encoding R107). -/
def readHead (devAddr : BitVec 7) (wa : Half) : List Event :=
  .start .ok :: .wrbyte (addrByte devAddr false) .ack :: ackTrace (be16 wa) ++ [.rstart .ok, .wrbyte (addrByte devAddr true) .ack]

theorem readTrace_eq (devAddr : BitVec 7) (wa : Half) (n : Nat) (v : List Byte) :
    readTrace devAddr wa n v = readHead devAddr wa ++ [.rdbytes n v] ++ [.stop] := rfl

/-- `BusRead` up to the line that asks for the data (42_bus R164). -/
theorem busRead_walks_to_rdbytes (hR : ∀ r, R r = true → r.grants = true) (n : Nat) :
    Walks (busReadStep wa n) R 17 .start s .rdbytes (s.afterBus (readHead s.devAddr wa) .addrR) := by
  have hgrants := fun r hr => BusReply.grants_iff.1 (hR r hr)
  have hhalf := (busReadHalf wa n).walks (s := s) (fun r hr => (hgrants r hr).2.2) fun r hr => (hgrants r hr).1
  refine hhalf.trans (n := 6) ?_
  refine .step (t := s.afterBus _ .dataSent) (p' := .setRstartPending) (fun _ _ => rfl) ?_
  refine .step (t := s.afterBus _ .rstartPending) (p' := .rstart) (fun _ _ => rfl) ?_
  refine .bus (a := .rstart) (e := .rstart .ok) (p' := .addrR .send) (fun r hr => ?_) (fun r hr => ?_) ?_
  · rw [busReadStep, onBus_some, (hgrants r hr).2.1]
  · rw [Action.event, (hgrants r hr).2.1]
  · have hsend := sendOrFail_walks (s := s) (R := R) (step := busReadStep wa n) (b := addrByte s.devAddr true)
      (inside := ReadPos.addrR) (sent := .setAddrR) (fail := none)
      ((.start .ok :: .wrbyte (addrByte s.devAddr false) .ack :: ackTrace (be16 wa)) ++ [.rstart .ok]) .rstartPending
      (fun _ _ _ _ => rfl) fun r hr => (hgrants r hr).2.2
    rw [List.append_assoc] at hsend
    exact hsend.trans (n := 1) (.step (fun _ _ => rfl) (.refl _ _))

/-- The data are delivered. -/
theorem busRead_walks_rdbytes {v : List Byte} (hR : ∀ r, R r = true → r.data = v) (n : Nat) (tr : List Event) (x : TState) :
    Walks (busReadStep wa n) R 1 .rdbytes (s.afterBus tr x) (.lenCheck v) (s.afterBus (tr ++ [.rdbytes n v]) x) :=
  .bus (a := .rdbytes n) (fun r hr => by rw [← hR r hr]; rfl) (fun r hr => by rw [Action.event, hR r hr]) (.refl _ _)

/-- As many bytes as were asked for, up to the return. -/
theorem busRead_walks_data {n : Nat} {v : List Byte} (hv : v.length = n) (tr : List Event) (x : TState) :
    Walks (busReadStep wa n) R 4 (.lenCheck v) (s.afterBus tr x) (.retOk v) (s.afterBus (tr ++ [.stop]) .idle) := by
  refine .step (t := s.afterBus tr x) (p' := .setDataReceived v) (fun _ _ => by rw [busReadStep, if_neg (not_not_intro hv)]) ?_
  refine .step (t := s.afterBus tr .dataReceived) (p' := .stop v) (fun _ _ => rfl) ?_
  refine .bus (a := .stop) (p' := .setIdle v) (fun _ _ => rfl) (fun _ _ => rfl) ?_
  exact .step (fun _ _ => rfl) (.refl _ _)

/-- `Resync` with its first Start granted, up to its return (42_bus R165). -/
theorem resync_walks (hR : ∀ r, R r = true → r.start = .ok) :
    Walks resyncStep R 4 .start s .retOk (s.afterBus resyncTrace .idle) := by
  refine .start (p' := .dummy) (fun r hr => by rw [resyncStep, onBus_some, hR r hr]) hR ?_
  refine .bus (a := .dummy 0xFF#8) (p' := .stop) (fun _ _ => rfl) (fun _ _ => rfl) ?_
  refine .bus (a := .stop) (p' := .setIdle) (fun _ _ => rfl) (fun _ _ => rfl) ?_
  exact .step (fun _ _ => rfl) (.refl _ _)

end

/-! ## Attempts of the command write (43_transaction R199 to R201) -/

/-- Inside or after the command write: the events tr so far, PHASE, TSTATE and the attempt made last. -/
def State.retried (tr : List Event) (ph : Phase) (x : TState) (a : Nat) (s : State) : State :=
  { s with pending := none, trace := s.trace ++ tr, tstate := x, phase := ph, attempts := BitVec.ofNat 4 a }

theorem State.retried_retried (tr tr' : List Event) (ph ph' : Phase) (x y : TState) (a b : Nat) (s : State) :
    (s.retried tr ph x a).retried tr' ph' y b = s.retried (tr ++ tr') ph' y b := by
  simp [State.retried]

section
variable {R : BusReply → Bool} {f : List Byte} {a n : Nat} {s t : State} {w w' : WritePos}

/-- The lines of an attempt before the write. -/
theorem retry_walks_to_write (ha : a ≤ 1 + s.snapRetries) :
    Walks (retryStep f) R 3 ⟨a, .head⟩ s ⟨a, .write .start⟩ ((s.setPhase .write).setAttempts a) := by
  refine .step (p' := ⟨a, .setWrite⟩) (t := s) (fun _ _ => by simp only [retryStep, if_pos ha]) ?_
  refine .step (p' := ⟨a, .setAttempts⟩) (t := s.setPhase .write) (fun _ _ => rfl) ?_
  exact .step (fun _ _ => rfl) (.refl _ _)

theorem retry_walks_write (hR : ∃ r, R r = true) (h : Walks (busWriteStep s.ioaddr f) R n w s w' t) :
    Walks (retryStep f) R n ⟨a, .write w⟩ s ⟨a, .write w'⟩ t := by
  refine Walks.inCall (step := busWriteStep s.ioaddr f) (inside := fun w => RetryPos.mk a (.write w))
    (k := fun ok t => (t, if ok then .ret ResultCode.ok else .at ⟨a, .setResync⟩)) (J := fun t => t.ioaddr = s.ioaddr)
    (fun w reply t ht => ?_) (fun w reply t ht => ?_) rfl hR h
  · simp only [retryStep, ht]
  · obtain ⟨pd, tr, ts, hframe⟩ := busWriteStep_frame s.ioaddr f w reply t
    rw [hframe, ← ht]

theorem retry_walks_resync {q q' : ResyncPos} (hR : ∃ r, R r = true) (h : Walks resyncStep R n q s q' t) :
    Walks (retryStep f) R n ⟨a, .resync q⟩ s ⟨a, .resync q'⟩ t :=
  Walks.inCall (step := resyncStep) (inside := fun q => RetryPos.mk a (.resync q))
    (k := fun ok t => (t, if ok then .at ⟨a + 1, .head⟩ else .ret ResultCode.resyncFail)) (J := fun _ => True)
    (fun _ _ _ _ => rfl) (fun _ _ _ _ => trivial) trivial hR h

/-- With everything granted, the first attempt's write comes to its return. -/
theorem retry_walks_granted (hR : ∃ r, R r = true) (hgrants : ∀ r, R r = true → r.grants = true) :
    Walks (retryStep f) R (3 * f.length + 18) retryStart s ⟨1, .write .retOk⟩
      (s.retried (writeTrace s.devAddr s.ioaddr f) .write .idle 1) :=
  (show 3 + (3 * f.length + 15) = 3 * f.length + 18 by omega) ▸ (retry_walks_to_write (by omega)).trans
    (retry_walks_write (s := (s.setPhase .write).setAttempts 1) hR (busWrite_walks hgrants f))

end

/-- Thirteen steps of an attempt whose address byte is not acknowledged, to the head of the loop (43_transaction R200). -/
theorem retry_walks_nacked {f : List Byte} {a : Nat} {s : State} (ha : a ≤ 1 + s.snapRetries) :
    Walks (retryStep f) BusReply.nacks 13 ⟨a, .head⟩ s ⟨a + 1, .head⟩
      (s.retried (nackTrace s.devAddr ++ resyncTrace) .resync .idle a) := by
  have hnacks : ∀ r, BusReply.nacks r = true → r.start = .ok ∧ r.byte = .nack := fun r hr => by
    simpa [BusReply.nacks] using hr
  have hR : ∃ r, BusReply.nacks r = true := ⟨⟨.ok, .ok, .nack, []⟩, rfl⟩
  refine (retry_walks_to_write ha).trans (n := 10) ?_
  generalize hu : (s.setPhase .write).setAttempts a = u
  have hwrite : Walks (busWriteStep u.ioaddr f) BusReply.nacks 3 .start u (.addr (.ifNack .nack))
      (u.afterBus [.start .ok, .wrbyte (addrByte u.devAddr false) .nack] u.tstate) := by
    refine .start (p' := .addr .send) (fun r hr => ?_) (fun r hr => (hnacks r hr).1) ?_
    · rw [busWriteStep, startTransfer, onBus_some, (hnacks r hr).1]
    refine .bus (a := .wrbyte (addrByte u.devAddr false)) (e := .wrbyte (addrByte u.devAddr false) .nack)
      (p' := .addr (.ifAck .nack)) (fun r hr => ?_) (fun r hr => ?_) (.step (fun _ _ => rfl) (.refl _ _))
    · rw [← (hnacks r hr).2]
      rfl
    · rw [Action.event, (hnacks r hr).2]
  refine (retry_walks_write hR hwrite).trans (n := 7) ?_
  refine .step (t := u.afterBus (nackTrace u.devAddr) .failed) (p' := ⟨a, .setResync⟩) (fun r _ => ?_) ?_
  · change (((u.afterBus _ u.tstate).answered .stop r).setTState .failed, _) = _
    rw [State.afterBus_answered]
    rfl
  refine .step (t := (u.afterBus (nackTrace u.devAddr) .failed).setPhase .resync) (p' := ⟨a, .resync .start⟩)
    (fun _ _ => rfl) ?_
  refine (retry_walks_resync hR (resync_walks fun r hr => (hnacks r hr).1)).trans (n := 1) ?_
  have hend : ((u.afterBus (nackTrace u.devAddr) .failed).setPhase .resync).afterBus resyncTrace .idle =
      s.retried (nackTrace s.devAddr ++ resyncTrace) .resync .idle a := by
    subst hu
    exact s.retried_retried (nackTrace s.devAddr) resyncTrace .write .resync .failed .idle a a
  exact hend ▸ .step (fun _ _ => rfl) (.refl _ _)

/-- The events of n attempts whose address byte is not acknowledged, each with its resync (43_transaction R200). -/
def nackedTrace (devAddr : BitVec 7) (n : Nat) : List Event :=
  (List.replicate n (nackTrace devAddr ++ resyncTrace)).flatten

/-- n + 1 such attempts from the a-th on. -/
theorem retry_walks_nacked_attempts {f : List Byte} (n : Nat) {a : Nat} {s : State} (ha : a + n ≤ 1 + s.snapRetries) :
    Walks (retryStep f) BusReply.nacks (13 * (n + 1)) ⟨a, .head⟩ s ⟨a + n + 1, .head⟩
      (s.retried (nackedTrace s.devAddr (n + 1)) .resync .idle (a + n)) := by
  induction n generalizing a s with
  | zero => simpa [nackedTrace] using retry_walks_nacked (f := f) (a := a) (s := s) ha
  | succ n ih =>
    have hrest := ih (a := a + 1) (s := s.retried (nackTrace s.devAddr ++ resyncTrace) .resync .idle a)
      ((by omega : a + 1 + n ≤ 1 + s.snapRetries))
    rw [State.retried_retried] at hrest
    have hall := (retry_walks_nacked (f := f) (s := s) (a := a) (by omega)).trans hrest
    rwa [show a + 1 + n = a + (n + 1) by omega, show 13 + 13 * (n + 1) = 13 * (n + 1 + 1) by omega] at hall

/-- With no address byte acknowledged and every Start granted, all 1 + RETRIES attempts are made (43_transaction R200). -/
theorem retry_walks_exhausted {f : List Byte} {s : State} :
    Walks (retryStep f) BusReply.nacks (13 * (1 + s.snapRetries) + 1) retryStart s ⟨2 + s.snapRetries, .exhausted⟩
      (s.retried (nackedTrace s.devAddr (1 + s.snapRetries)) .resync .idle (1 + s.snapRetries)) := by
  have hall := retry_walks_nacked_attempts (f := f) s.snapRetries (a := 1) (s := s) le_rfl
  rw [Nat.add_comm s.snapRetries 1, show 1 + s.snapRetries + 1 = 2 + s.snapRetries by omega] at hall
  refine hall.trans (.step (fun _ _ => ?_) (.refl _ _))
  exact congrArg (fun l => (_, Flow.at (RetryPos.mk _ l))) (if_neg (by change ¬2 + s.snapRetries ≤ 1 + s.snapRetries; omega))

/-- With the bus held at every Start, the first attempt fails and its resync too, up to its return (43_transaction R201). -/
theorem retry_walks_held {f : List Byte} {s : State} :
    Walks (retryStep f) BusReply.holds 8 retryStart s ⟨1, .resync .retHeld⟩
      (s.retried [.start .held, .start .held, .start .held] .resync .failed 1) := by
  have hholds : ∀ r, BusReply.holds r = true → r.start = .held := fun r hr => by simpa [BusReply.holds] using hr
  have hR : ∃ r, BusReply.holds r = true := ⟨⟨.held, .ok, .ack, []⟩, rfl⟩
  refine (retry_walks_to_write (by omega)).trans (n := 5) ?_
  generalize hu : (s.setPhase .write).setAttempts 1 = u
  refine .step (t := u.afterBus [.start .held] .failed) (p' := ⟨1, .setResync⟩) (fun r hr => ?_) ?_
  · have hstate : u.answered .start r = u.afterBus [.start .held] u.tstate := by rw [← hholds r hr]; rfl
    simp only [retryStep, busWriteStep, startTransfer, onBus_some, hholds r hr, hstate]
    rfl
  refine .step (t := (u.afterBus [.start .held] .failed).setPhase .resync) (p' := ⟨1, .resync .start⟩) (fun _ _ => rfl) ?_
  generalize hv : (u.afterBus [.start .held] .failed).setPhase .resync = v
  have hend : v.afterBus [.start .held, .start .held] .failed =
      s.retried [.start .held, .start .held, .start .held] .resync .failed 1 := by
    subst hv hu
    exact s.retried_retried [.start .held] [.start .held, .start .held] .write .resync .failed .failed 1 1
  rw [← hend]
  refine retry_walks_resync hR ?_
  refine .start (p' := .startAgain) (fun r hr => by rw [resyncStep, onBus_some, hholds r hr]) hholds ?_
  refine .bus (a := .start) (e := .start .held) (p' := .setFailed) (fun r hr => by rw [resyncStep, onBus_some, hholds r hr])
    (fun r hr => by rw [Action.event, hholds r hr]) ?_
  exact .step (fun _ _ => rfl) (.refl _ _)

end Sys2Proof.Machine
end

section
/-! EXECUTE and SLEEP around their command write: the lines before it, what it reads, and its two bad ends that the environment's
answers fix, no byte acknowledged and the bus held (43_transaction R199 to R201, 44_wake_sleep R228). -/

namespace Sys2Proof.Machine

/-! ## The frame built -/

/-- A frame f is built in buffer memory m, RSP is r, and `before` are the events sent so far. -/
def State.prepared (f : List Byte) (before : List Event) (r : Rsp) (m : List Host.Cell) (ph : Phase) (pd : Option Action)
    (s : State) : State :=
  { s with
    rsp := r, mem := m, frameLen := BitVec.ofNat 8 f.length, phase := ph, pending := pd, trace := s.trace ++ before }

/-- The events before EXECUTE's command write (43_transaction R198). -/
def wakeTrace (wakeFirst : Bool) : List Event :=
  if wakeFirst then [.wakePulse Config.tWakeLow Config.tWakeHigh] else []

/-- What EXECUTE comes to its command write in. -/
def State.readyToWrite (f : List Byte) (wakeFirst : Bool) (s : State) : State :=
  { (s.setRsp noFrame).withFrame f with
    phase := if wakeFirst then .wake else .marshal, pending := if wakeFirst then none else s.pending,
    trace := s.trace ++ wakeTrace wakeFirst }

theorem State.readyToWrite_eq (f : List Byte) (wakeFirst : Bool) (s : State) : s.readyToWrite f wakeFirst =
    s.prepared f (wakeTrace wakeFirst) noFrame (s.readyToWrite f wakeFirst).mem (if wakeFirst then .wake else .marshal)
      (if wakeFirst then none else s.pending) := by
  rw [State.readyToWrite, State.withFrame_eq]
  rfl

/-- The command write of a command at `inside`, which goes on at `result` with what it returned: in b the bytes it takes from TXBUF
are f, and a failure it returned completes the command. -/
structure CommandWrite (q : Seq) (f : List Byte) (b : State) (inside : RetryPos → Pos) (result : ResultCode → Pos) : Prop where
  inside_ne : ∀ p, inside p ≠ .accepted
  result_ne : ∀ w, result w ≠ .accepted
  write : ∀ p r t, RetryFrame b t → lineStep (inside p) (some r) (t.onLine q (inside p)) =
    resume q inside (fun w t => t.onLine q (result w)) (retryStep f p (some r) t)
  failure : ∀ w reply (t : State), w ≠ .ok → lineStep (result w) reply (t.onLine q (result w)) = t.complete w

section
variable {q : Seq} {f : List Byte} {b t u : State} {inside : RetryPos → Pos} {result : ResultCode → Pos} {R : BusReply → Bool}
  {m n : Nat} {p : RetryPos} {w : ResultCode} {Q : State → Prop}

/-- A command write whose steps the answers fix up to its return. -/
theorem CommandWrite.leadsTo (h : CommandWrite q f b inside result) (hwalk : Walks (retryStep f) R n retryStart b p t)
    (hret : ∀ r, R r = true → retryStep f p (some r) t = (t, .ret w)) :
    LeadsTo (Turn.replies R) (n + 1) (b.onLine q (inside retryStart)) (t.onLine q (result w)) := by
  refine .walk h.inside_ne h.write (fun p r t ht => ht.trans (retryStep_frame ..)) (.refl b) hwalk fun ht => ?_
  refine .step (h.inside_ne _) fun x hx => ?_
  cases x with
  | host a | reset => cases hx
  | ctrl reply => cases reply with
    | none => cases hx
    | some r =>
      refine ⟨some r, rfl, ?_⟩
      rw [h.write _ r t ht, hret r hx]
      exact .refl _

/-- The same for one that returns a failure. -/
theorem CommandWrite.endsIn_of_failure (h : CommandWrite q f b inside result)
    (hwalk : Walks (retryStep f) R n retryStart b p t) (hret : ∀ r, R r = true → retryStep f p (some r) t = (t, .ret w))
    (hw : w ≠ .ok) : EndsIn (Turn.replies R) (n + 2) (b.onLine q (inside retryStart)) (· = t.complete w) :=
  (h.leadsTo hwalk hret).endsIn (m := 1) <|
    .line (replies_isCtrl R) (h.result_ne w) (.complete rfl) fun reply => h.failure w reply t hw

end

/-! ## SLEEP and EXECUTE -/

section
variable {s : State} {q : Seq} {f : List Byte}

theorem sleep_commandWrite {idle : Bool} (hq : s.seq = some q) (hslice : s.bufSlice .txbuf 0 s.frameLen.toNat = f) :
    CommandWrite q f s (fun p => .sleep idle (.write p)) fun w => .sleep idle (.result w) where
  inside_ne _ := nofun
  result_ne _ := nofun
  write p r _ ht := sleepLine_onLine hslice (by simp [State.snapRetries, hq]) p r ht
  failure _ _ _ hw := if_neg hw

theorem execute_commandWrite {wakeFirst : Bool} (hq : s.seq = some q) (hslice : s.bufSlice .txbuf 0 s.frameLen.toNat = f) :
    CommandWrite q f s (fun p => .execute wakeFirst (.write p)) fun w => .execute wakeFirst (.result w) where
  inside_ne _ := nofun
  result_ne _ := nofun
  write p r t ht := by
    have hread : t.bufSlice .txbuf 0 t.frameLen.toNat = f ∧ t.snapRetries = q.retries.toNat := by
      obtain ⟨pd, tr, ts, ph, n, rfl⟩ := ht
      exact ⟨hslice, by simp [State.snapRetries, hq]⟩
    obtain ⟨rfl, hkt⟩ := hread
    exact callLine_onLine (retryStep_onLine hkt ..) fun _ _ => rfl
  failure _ _ _ hw := if_neg hw

theorem State.commandFrame_length_lt {s : State} (hp : s.params.legal = true) (hf : s.commandFrame = some f) : f.length < 256 := by
  have hfits : f.length ≤ s.params.maxCmdSize := by simpa [Buf.size] using State.commandFrame_fits_txbuf hp hf
  have := (Params.maxCmdSize_bounds hp).2
  omega

theorem State.readyToWrite_bufSlice {w : Bool} (hp : s.params.legal = true) (hf : s.commandFrame = some f) :
    (s.readyToWrite f w).bufSlice .txbuf 0 (s.readyToWrite f w).frameLen.toNat = f :=
  State.withFrame_bufSlice (s := s.setRsp noFrame) (State.commandFrame_fits_txbuf hp hf) (State.commandFrame_length_lt hp hf)

theorem State.readyToWrite_storesAt {w : Bool} (hp : s.params.legal = true) (hf : s.commandFrame = some f) :
    StoresAt s (s.readyToWrite f w) .txbuf 0 f :=
  State.setBufBytes_storesAt (s := (s.setRsp noFrame).setPhase .marshal) (State.commandFrame_fits_txbuf hp hf)

/-- The moves before EXECUTE's command write: nine, and two more for the wake pulse (43_transaction R196 to R198). -/
def beforeWrite (wakeFirst : Bool) : Nat := if wakeFirst then 11 else 9

theorem execute_leadsTo_write {R : BusReply → Bool} {w : Bool} (hts : s.tstate ≠ .failed) (hmin : 4 ≤ s.respLen.toNat)
    (hmax : s.respLen.toNat ≤ s.params.rxBufSize) (hf : s.commandFrame = some f) :
    LeadsTo (Turn.replies R) (beforeWrite w) (s.onLine q (firstLine (.execute w)))
      ((s.readyToWrite f w).onLine q (.execute w (.write retryStart))) := by
  have hok := replies_isCtrl R
  have built : LeadsTo (Turn.replies R) 8 (s.onLine q (firstLine (.execute w)))
      (((s.setRsp noFrame).withFrame f).onLine q (.execute w .ifWake)) := by
    refine (execute_leadsTo_check hok hts (by omega)).trans (n := 2) ?_
    rw [hf]
    refine .line hok nofun (t := ((s.setRsp noFrame).setPhase .marshal).onLine q (.execute w (.store f))) ?_ fun _ => rfl
    refine .single hok nofun fun _ => ?_
    rw [lineStep, executeLine, State.setBufBytes_onLine]
    rfl
  have hframe := State.withFrame_eq f (s.setRsp noFrame)
  generalize hb : (s.setRsp noFrame).withFrame f = b at built hframe
  have htrace : b.trace = s.trace := by rw [hframe]; rfl
  cases w with
  | false =>
    have hready : s.readyToWrite f false = b := by
      rw [State.readyToWrite, hb, hframe]
      simp [wakeTrace, State.setRsp]
    rw [hready]
    exact built.trans (n := 1) (.single hok nofun fun _ => rfl)
  | true =>
    refine built.trans (n := 3) ?_
    refine .line hok nofun (t := b.onLine q (.execute true .setWake)) ?_ fun _ => rfl
    refine .line hok nofun (t := (b.setPhase .wake).onLine q (.execute true .pulse)) ?_ fun _ => rfl
    have hpulse : ∀ r, (b.setPhase .wake).answered wakePulse r = s.readyToWrite f true := by
      intro r
      rw [State.readyToWrite, hb, ← htrace]
      rfl
    refine .step nofun fun x hx => ?_
    cases x with
    | host a | reset => cases hx
    | ctrl reply => cases reply with
      | none => cases hx
      | some r => exact ⟨some r, rfl, hpulse r ▸ .refl _⟩

end

/-! ## The two bad ends of the command write (43_transaction R200, R201) -/

/-- SLEEP or EXECUTE, its checks passed, writes the frame f after the events `before`, with r in RSP. -/
def WritesFrame (s : State) (i : Instr) (f : List Byte) (before : List Event) (r : Rsp) : Prop :=
  (∃ idle, i = .sleep idle ∧ f = sleepFrame s.params idle ∧ before = [] ∧ r = s.rsp) ∨
    ∃ wakeFirst, i = .execute wakeFirst ∧ s.commandFrame = some f ∧ 4 ≤ s.respLen.toNat ∧
      s.respLen.toNat ≤ s.params.rxBufSize ∧ r = noFrame ∧ before = wakeTrace wakeFirst

section
variable {s : State} {i : Instr} {f : List Byte} {before : List Event} {r : Rsp}

/-- Such a command comes to its command write within eleven moves, with f in TXBUF. -/
theorem WritesFrame.exists_commandWrite {q : Seq} (h : WritesFrame s i f before r) (hq : s.seq = some q)
    (hp : s.params.legal = true) (hts : s.tstate ≠ .failed) :
    ∃ b m ph pd inside result, b = s.prepared f before r m ph pd ∧ CommandWrite q f b inside result ∧
      StoresAt s b .txbuf 0 f ∧
      ∀ R n Q, EndsIn (Turn.replies R) n (b.onLine q (inside retryStart)) Q →
        EndsIn (Turn.replies R) (n + 11) (s.onLine q (firstLine i)) Q := by
  obtain ⟨idle, rfl, rfl, rfl, rfl⟩ | ⟨w, rfl, hf, hmin, hmax, rfl, rfl⟩ := h
  · generalize hf : sleepFrame s.params idle = f
    have hfits := hf ▸ sleepFrame_fits_txbuf hp idle
    have hbyte : f.length < 256 := by simp [← hf, sleepFrame_length]
    have hseq : (s.withFrame f).seq = some q := by rw [State.withFrame_eq, hq]
    refine ⟨s.withFrame f, (s.withFrame f).mem, .marshal, s.pending, _, _, ?_,
      sleep_commandWrite (idle := idle) hseq (State.withFrame_bufSlice hfits hbyte),
      State.setBufBytes_storesAt (s := s.setPhase .marshal) hfits, fun R n Q h => ?_⟩
    · rw [State.prepared, List.append_nil]
      exact s.withFrame_eq f
    · exact (sleep_endsIn_of_write hts hf h).mono (by omega)
  · refine ⟨s.readyToWrite f w, _, _, _, _, _, s.readyToWrite_eq f w,
      execute_commandWrite (wakeFirst := w) (by rw [State.readyToWrite_eq]; exact hq) (State.readyToWrite_bufSlice hp hf),
      State.readyToWrite_storesAt hp hf, fun R n Q h => ?_⟩
    exact ((execute_leadsTo_write hts hmin hmax hf).endsIn h).mono (by cases w <;> simp [beforeWrite] <;> omega)

/-- Such a command whose command write the answers make fail after n steps. -/
theorem WritesFrame.exec_of_failure {R : BusReply → Bool} {n a : Nat} {p : RetryPos} {w : ResultCode} {tr : List Event}
    {x : TState} (h : WritesFrame s i f before r) (hstart : s.atStart = true) (hp : s.params.legal = true)
    (hidle : s.tstate = .idle) (hturns : s.turns.all (Turn.replies R) = true) (hlen : n + 13 ≤ s.turns.length)
    (hwalk : ∀ b : State, b.snapRetries = s.snapRetries → b.devAddr = s.devAddr →
      Walks (retryStep f) R n retryStart b p (b.retried tr .resync x a))
    (hret : ∀ r t, R r = true → retryStep f p (some r) t = (t, .ret w)) (hw : w ≠ .ok) :
    ∃ t, exec i s = .next t ∧ StoresAt s t .txbuf 0 f ∧
      t = { s with
        turns := t.turns, mem := t.mem, pending := none, frameLen := BitVec.ofNat 8 f.length, attempts := BitVec.ofNat 4 a,
        rsp := r, tstate := x, trace := s.trace ++ before ++ tr, result := w, phase := .idle, busy := false, done := true,
        seq := none } := by
  have ends : ∀ q, s.seq = some q → EndsIn (Turn.replies R) (n + 13) (s.onLine q (firstLine i)) fun t =>
      ∃ m ph pd, StoresAt s (s.prepared f before r m ph pd) .txbuf 0 f ∧
        t = ((s.prepared f before r m ph pd).retried tr .resync x a).complete w := by
    intro q hq
    obtain ⟨b, m, ph, pd, inside, result, rfl, hwrite, hstores, hbefore⟩ := h.exists_commandWrite hq hp (by simp [hidle])
    refine hbefore R (n + 2) _ ?_
    intro ts hts hlen
    obtain ⟨_, left, hrun, rfl⟩ := hwrite.endsIn_of_failure (hwalk _ rfl rfl) (fun r hr => hret r _ hr) hw ts hts hlen
    exact ⟨_, left, hrun, m, ph, pd, hstores, rfl⟩
  obtain ⟨_, left, hrun, m, ph, pd, hstores, rfl⟩ := exec_of_endsIn_of_seq hstart hturns hlen ends
  exact ⟨_, hrun, hstores, rfl⟩

end

/-- Settles O34: the first attempt's resync is held twice. -/
theorem heldResyncEndsTheRetry : Obligations.HeldResyncEndsTheRetry := by
  intro s i f before r hstart hp hidle hi hturns hlen
  have h : WritesFrame s i f before r := hi
  exact h.exec_of_failure hstart hp hidle hturns (by omega) (fun _ _ _ => retry_walks_held) (fun _ _ _ => rfl) (by decide)

/-- SLEEP and EXECUTE with no address byte acknowledged and every resync granted (43_transaction R200). -/
theorem exec_of_nacks {s : State} {i : Instr} {f : List Byte} {before : List Event} {r : Rsp} (h : WritesFrame s i f before r)
    (hstart : s.atStart = true) (hp : s.params.legal = true) (hidle : s.tstate = .idle)
    (hturns : s.turns.all (Turn.replies BusReply.nacks) = true) (hlen : 20 + 13 * (1 + s.snapRetries) ≤ s.turns.length) :
    ∃ t, exec i s = .next t ∧ StoresAt s t .txbuf 0 f ∧
      t = { s with
        turns := t.turns, mem := t.mem, pending := none, frameLen := BitVec.ofNat 8 f.length,
        attempts := BitVec.ofNat 4 (1 + s.snapRetries), rsp := r, tstate := .idle,
        trace := s.trace ++ before ++ nackedTrace s.devAddr (1 + s.snapRetries),
        result := .commFail, phase := .idle, busy := false, done := true, seq := none } := by
  refine h.exec_of_failure (n := 13 * (1 + s.snapRetries) + 1) hstart hp hidle hturns (by omega) (fun b hk hdev => ?_)
    (p := ⟨2 + s.snapRetries, .exhausted⟩) (fun _ _ _ => rfl) (by decide)
  rw [← hk, ← hdev]
  exact retry_walks_exhausted

end Sys2Proof.Machine
end

section
/-! The command write whatever the environment answers (43_transaction R199 to R201), and how SLEEP ends by it (44_wake_sleep R228,
R230). -/

namespace Sys2Proof.Machine

/-! ## `WriteWithRetry` returns by one of its traces -/

/-- After the command write has answered w, at attempt a (43_transaction R199 to R201). -/
def State.afterRetry (tr : List Event) (w : ResultCode) (a : Nat) (s : State) : State :=
  s.retried tr (if w = .ok then .write else .resync) (resyncTState (w != .resyncFail)) a

section
variable {R : BusReply → Bool} {Q : Nat → ResultCode → State → Prop} {f : List Byte} {a n : Nat} {s : State}

/-- A failed attempt's resync: the retry ends with it, or goes on to the head of its loop. -/
theorem retry_returns_of_setResync {x : List Event}
    (hheld : ∀ y k, ResyncRuns y false → n ≤ k → Q k .resyncFail (s.retried (x ++ y) .resync .failed a))
    (hok : ∀ y k, ResyncRuns y true → n ≤ k →
      Returns (retryStep f) R Q k ⟨a + 1, .head⟩ (s.retried (x ++ y) .resync .idle a)) :
    Returns (retryStep f) R Q (n + 7) ⟨a, .setResync⟩ (s.retried x .write .failed a) := by
  refine .stay (p' := ⟨a, .resync .start⟩) (t := s.retried x .resync .failed a) (fun _ => rfl) ?_
  refine Returns.inCall (step := resyncStep) (caller := retryStep f) (inside := fun q => RetryPos.mk a (.resync q))
    (flow := fun ok => if ok then .at ⟨a + 1, .head⟩ else .ret ResultCode.resyncFail) (J := fun _ => True)
    (fun _ _ _ _ => rfl) (fun _ _ _ _ => trivial) trivial ?_
  refine resync_returns fun y ok k hy _ hk => ?_
  have hstate : (s.retried x .resync .failed a).afterBus y (resyncTState ok) =
      s.retried (x ++ y) .resync (resyncTState ok) a := s.retried_retried x y .resync .resync .failed _ a a
  rw [hstate]
  cases ok with
  | false => exact hheld y k hy hk
  | true => exact hok y k hy hk

/-- Attempt a, whole: it ends the retry, or leads to the head of the loop. -/
theorem retry_returns_of_head (ha : a ≤ 1 + s.snapRetries)
    (hsent : ∀ x k, WriteRuns s.devAddr s.ioaddr f x true → n ≤ k → Q k .ok (s.retried x .write .idle a))
    (hheld : ∀ x y k, WriteRuns s.devAddr s.ioaddr f x false → ResyncRuns y false → n ≤ k →
      Q k .resyncFail (s.retried (x ++ y) .resync .failed a))
    (hagain : ∀ x y k, WriteRuns s.devAddr s.ioaddr f x false → ResyncRuns y true → n ≤ k →
      Returns (retryStep f) R Q k ⟨a + 1, .head⟩ (s.retried (x ++ y) .resync .idle a)) :
    Returns (retryStep f) R Q (n + (3 * f.length + 27)) ⟨a, .head⟩ s := by
  refine retry_returns_of_attempt (n := n + 7) (m := n + (3 * f.length + 24)) ha (by omega) (fun _ => by omega)
    (fun x k hx _ hk => hsent x k hx (by omega)) fun x k hx _ hk => ?_
  obtain ⟨j, rfl⟩ := Nat.exists_eq_add_of_le' hk
  rw [← Nat.add_assoc]
  exact retry_returns_of_setResync (fun y k hy hk => hheld x y k hx hy (by omega)) fun y k hy hk =>
    hagain x y k hx hy (by omega)

/-- From attempt a on, r attempts being left after it. -/
theorem retry_returns (r : Nat) (hr : a + r = 1 + s.snapRetries)
    (hQ : ∀ tr w m k, RetryRuns s.devAddr s.ioaddr f s.snapRetries a tr w m → n ≤ k → Q k w (s.afterRetry tr w m)) :
    Returns (retryStep f) R Q (n + 2 + r * (3 * f.length + 27) + (3 * f.length + 27)) ⟨a, .head⟩ s := by
  induction r generalizing a n s with
  | zero =>
    refine retry_returns_of_head (n := n + 2 + 0 * (3 * f.length + 27)) (by omega)
      (fun x k hx hk => hQ x .ok a k (.ok hx) (by omega))
      (fun x y k hx hy hk => hQ _ .resyncFail a k (.held hx hy) (by omega)) fun x y k hx hy hk => ?_
    obtain ⟨j, rfl⟩ := Nat.exists_eq_add_of_le' (show n + 2 ≤ k by omega)
    refine .stay (p' := ⟨a + 1, .exhausted⟩) (t := s.retried (x ++ y) .resync .idle a) (fun _ => ?_) (.ret (fun _ => rfl) ?_)
    · exact congrArg (fun l => (_, Flow.at (RetryPos.mk _ l))) (if_neg (by change ¬a + 1 ≤ 1 + s.snapRetries; omega))
    · exact hQ _ .commFail a _ (.exhausted hx hy hr) (Nat.le_add_left n j)
  | succ r ih =>
    refine retry_returns_of_head (n := n + 2 + (r + 1) * (3 * f.length + 27)) (by omega)
      (fun x k hx hk => hQ x .ok a k (.ok hx) (by omega))
      (fun x y k hx hy hk => hQ _ .resyncFail a k (.held hx hy) (by omega)) fun x y k hx hy hk => ?_
    obtain ⟨j, rfl⟩ := Nat.exists_eq_add_of_le' hk
    have hrest := ih (a := a + 1) (n := j + n) (s := s.retried (x ++ y) .resync .idle a)
      ((by omega : a + 1 + r = 1 + s.snapRetries)) fun z w m k hz hk => by
        have := hQ (x ++ y ++ z) w m k (.again hx hy (by omega) hz) (by omega)
        rw [State.afterRetry, State.retried_retried]
        exact this
    rwa [show j + n + 2 + r * (3 * f.length + 27) + (3 * f.length + 27) = j + (n + 2 + (r + 1) * (3 * f.length + 27)) by
      rw [Nat.succ_mul r]; omega] at hrest

/-- `WriteWithRetry` from its first line. -/
theorem retryStart_returns
    (hQ : ∀ tr w m k, RetryRuns s.devAddr s.ioaddr f s.snapRetries 1 tr w m → n ≤ k → Q k w (s.afterRetry tr w m)) :
    Returns (retryStep f) R Q (n + 2 + s.snapRetries * (3 * f.length + 27) + (3 * f.length + 27)) retryStart s :=
  retry_returns s.snapRetries rfl hQ

/-- What the command write answers (43_transaction R199 to R201). -/
theorem RetryRuns.answer {d : BitVec 7} {wa : Half} {k m : Nat} {tr : List Event} {w : ResultCode}
    (h : RetryRuns d wa f k a tr w m) : w = .ok ∨ w = .commFail ∨ w = .resyncFail := by
  induction h with
  | ok _ => exact .inl rfl
  | held _ _ => exact .inr (.inr rfl)
  | exhausted _ _ _ => exact .inr (.inl rfl)
  | again _ _ _ _ ih => exact ih

end

/-! ## SLEEP (44_wake_sleep R228, R230) -/

/-- A command's command write, ended as the returns of `WriteWithRetry` let it. -/
theorem CommandWrite.endsIn {q : Seq} {f : List Byte} {b : State} {inside : RetryPos → Pos} {result : ResultCode → Pos}
    {R : BusReply → Bool} {n : Nat} {Q : State → Prop} (h : CommandWrite q f b inside result)
    (hret : Returns (retryStep f) R (fun m w t => EndsIn (Turn.replies R) m (t.onLine q (result w)) Q) n retryStart b) :
    EndsIn (Turn.replies R) n (b.onLine q (inside retryStart)) Q :=
  .call h.inside_ne h.write (fun _ _ _ ht => ht.trans (retryStep_frame ..)) (.refl b) hret

/-- SLEEP, its check passed, ends by a trace of `WriteWithRetry`. -/
theorem sleep_endsIn {R : BusReply → Bool} {s : State} {q : Seq} {idle : Bool} {f : List Byte} (hq : s.seq = some q)
    (hp : s.params.legal = true) (hts : s.tstate ≠ .failed) (hf : sleepFrame s.params idle = f) :
    EndsIn (Turn.replies R) (2 + 2 + s.snapRetries * (3 * f.length + 27) + (3 * f.length + 27) + 6)
      (s.onLine q (firstLine (.sleep idle))) fun t =>
      ∃ tr w a, RetryRuns s.devAddr s.ioaddr f s.snapRetries 1 tr w a ∧ t = ((s.withFrame f).afterRetry tr w a).complete w := by
  have hslice := State.withFrame_bufSlice (s := s) (f := f) (hf ▸ sleepFrame_fits_txbuf hp idle)
    (by simp [← hf, sleepFrame_length])
  have hframe := s.withFrame_eq f
  refine sleep_endsIn_of_write hts hf ?_
  generalize s.withFrame f = b at hslice hframe
  have hdev : b.devAddr = s.devAddr := by rw [hframe]
  have hio : b.ioaddr = s.ioaddr := by rw [hframe]
  have hk : b.snapRetries = s.snapRetries := by rw [hframe]; rfl
  refine CommandWrite.endsIn (sleep_commandWrite (by rw [hframe]; exact hq) hslice) ?_
  rw [← hdev, ← hio, ← hk]
  refine retryStart_returns fun tr w a k htr hk => ?_
  by_cases hw : w = .ok
  · subst hw
    exact (sleep_endsIn_of_ok ⟨tr, _, a, htr, rfl⟩).mono hk
  · refine EndsIn.mono (n := 1) (.line (replies_isCtrl R) nofun (.complete ?_) fun _ => if_neg hw) (by omega)
    exact ⟨tr, w, a, htr, rfl⟩

/-- Settles O33: thirteen steps for each attempt whose address byte is not acknowledged, and every way `WriteWithRetry` returns. -/
theorem writeRetryExhaustsItsAttempts : Obligations.WriteRetryExhaustsItsAttempts := by
  refine ⟨fun s i f before r hstart hp hidle hi hturns hlen => ?_, fun s t idle hstart hp hidle hturns hexec hend => ?_⟩
  · have h : WritesFrame s i f before r := hi
    rw [hidle]
    exact exec_of_nacks h hstart hp hidle hturns hlen
  · generalize hf : sleepFrame s.params idle = f
    have hlen : f.length = 9 := hf ▸ sleepFrame_length ..
    obtain ⟨_, left, rfl, tr, w, a, htr, rfl⟩ := completed_of_endsIn_of_seq hstart hturns hexec hend fun q hq =>
      sleep_endsIn hq hp (by simp [hidle]) hf
    refine ⟨tr, w, a, htr, State.setBufBytes_storesAt (s := s.setPhase .marshal) (hf ▸ sleepFrame_fits_txbuf hp idle), ?_⟩
    rw [State.withFrame_eq, hlen]
    rfl

end Sys2Proof.Machine
end

section
/-! EXECUTE after its command write: the lines between its two reads and after them, and what they leave (43_transaction R202 to
R207). -/

namespace Sys2Proof.Machine

/-! ## Stores one after another -/

section
variable {s t u : State} {b : Buf} {a : Nat} {v v' : List Byte}

theorem StoresAt.nil (s : State) (b : Buf) (a : Nat) : StoresAt s s b a [] := ⟨nofun, fun _ _ => rfl⟩

/-- Bytes stored right behind the ones before. -/
theorem StoresAt.append (h : StoresAt s t b a v) (h' : StoresAt t u b (a + v.length) v') : StoresAt s u b a (v ++ v') := by
  obtain ⟨hv, hother⟩ := h
  obtain ⟨hv', hother'⟩ := h'
  refine ⟨fun j hj => ?_, fun off hoff => ?_⟩
  · by_cases hjv : j < v.length
    · rw [List.getD_append _ _ _ _ hjv, ← hv j hjv]
      refine hother' _ fun i _ heq => ?_
      have := Buf.offset_inj heq
      omega
    · rw [List.length_append] at hj
      rw [List.getD_append_right _ _ _ _ (by omega), ← hv' _ (by omega)]
      exact congrArg (u.bufByte b) (by omega)
  · rw [List.length_append] at hoff
    rw [hother' off fun j hj => ?_, hother off fun j hj => hoff j (by omega)]
    rw [Nat.add_assoc]
    exact hoff _ (by omega)

/-- Bytes stored over the ones before. -/
theorem StoresAt.overwrite (h : StoresAt s t b a v) (h' : StoresAt t u b a v') (hlen : v.length ≤ v'.length) :
    StoresAt s u b a v' :=
  ⟨h'.1, fun off hoff => (h'.2 off hoff).trans (h.2 off fun j hj => hoff j (by omega))⟩

/-- What was stored reads back whole. -/
theorem StoresAt.bufSlice (h : StoresAt s t b a v) : t.bufSlice b a v.length = v := by
  refine List.ext_getElem (State.bufSlice_length ..) fun j _ hj => ?_
  rw [State.bufSlice_getElem, h.1 j hj, List.getD_eq_getElem _ _ hj]

end

/-- What the end of a command says implies more. -/
theorem EndsIn.imp {ok : Turn → Bool} {n : Nat} {s : State} {P Q : State → Prop} (h : EndsIn ok n s P)
    (hPQ : ∀ t, P t → Q t) : EndsIn ok n s Q := fun ts hts hlen => by
  obtain ⟨t, left, hrun, ht⟩ := h ts hts hlen
  exact ⟨t, left, hrun, hPQ t ht⟩

/-! ## The state after the command write -/

/-- After EXECUTE's command write came to b: memory, RX_LEN, the events tr since, PHASE, TSTATE and the last attempt. -/
def State.exchanged (m : List Host.Cell) (rx : Byte) (tr : List Event) (ph : Phase) (x : TState) (a : Nat) (b : State) : State :=
  { b with
    mem := m, rxLen := rx, pending := none, trace := b.trace ++ tr, phase := ph, tstate := x, attempts := BitVec.ofNat 4 a }

/-- Memory m after bytes were stored. -/
def State.storeIn (buf : Buf) (i : Nat) (v : List Byte) (m : List Host.Cell) (b : State) : List Host.Cell :=
  (State.setBufBytes buf i v { b with mem := m }).mem

/-- EXECUTE has ended as e says, the events tr since b. -/
def State.executed (m : List Host.Cell) (tr : List Event) (e : ExecuteEnd) (b : State) : State :=
  { b with
    mem := m, pending := none, attempts := BitVec.ofNat 4 e.attempts, rxLen := (e.rxLen.map (BitVec.ofNat 8)).getD b.rxLen,
    rsp := e.rsp, tstate := e.tstate, trace := b.trace ++ tr, result := e.code, phase := .idle, busy := false, done := true,
    seq := none }

section
variable {b : State} {m : List Host.Cell} {rx : Byte} {tr : List Event} {ph : Phase} {x : TState} {a : Nat} {buf : Buf}

theorem State.exchanged_afterBus (tr' : List Event) (y : TState) :
    (b.exchanged m rx tr ph x a).afterBus tr' y = b.exchanged m rx (tr ++ tr') ph y a := by
  simp [State.exchanged, State.afterBus]

theorem State.exchanged_recordWait (n : Nat) :
    (b.exchanged m rx tr ph x a).recordWait n = b.exchanged m rx (tr ++ [.wait n]) ph x a := by
  simp [State.exchanged, State.recordWait]

theorem State.exchanged_setBufBytes (i : Nat) (v : List Byte) :
    (b.exchanged m rx tr ph x a).setBufBytes buf i v = b.exchanged (b.storeIn buf i v m) rx tr ph x a := by
  have hcomm := State.setBufBytes_comm (b := buf) (g := fun u : State =>
    { u with rxLen := rx, pending := none, trace := b.trace ++ tr, phase := ph, tstate := x, attempts := BitVec.ofNat 4 a })
    (fun u i y => by rw [State.setBufByte_eq, State.setBufByte_eq]) i v { b with mem := m }
  obtain ⟨m', hm⟩ := State.setBufBytes_frame buf i v { b with mem := m }
  rw [State.storeIn, hm]
  rw [hm] at hcomm
  exact hcomm

theorem State.storeIn_storesAt {i : Nat} {v : List Byte} (h : i + v.length ≤ buf.size b.params) :
    StoresAt { b with mem := m } { b with mem := b.storeIn buf i v m } buf i v := by
  have hstores := State.setBufBytes_storesAt (s := { b with mem := m }) h
  obtain ⟨m', hm⟩ := State.setBufBytes_frame buf i v { b with mem := m }
  rw [State.storeIn, hm]
  rwa [hm] at hstores

end

/-! ## The lines between the primitives -/

section
variable {ok : Turn → Bool} {s : State} {q : Seq} {w : Bool} {c : Byte} {v : List Byte} {l : ExecuteLine} {Q : State → Prop}
  (hok : ∀ x, ok x = true → x.isCtrl = true)
include hok

/-- After a command write that returned OK: the wait, and on to the count read (43_transaction R202). -/
theorem execute_leadsTo_readCount : LeadsTo ok 4 (s.onLine q (.execute w (.result .ok)))
    (((s.recordWait (Config.procDelay s.opcode s.mode)).setPhase .readCount).onLine q (.execute w (.readCount .start))) := by
  refine .line hok nofun (t := s.onLine q (.execute w .setWait)) ?_ fun _ => rfl
  refine .line hok nofun (t := (s.setPhase .wait).onLine q (.execute w .wait)) ?_ fun _ => rfl
  refine .line hok nofun (t := ((s.setPhase .wait).recordWait (Config.procDelay s.opcode s.mode)).onLine q
    (.execute w .setReadCount)) ?_ fun _ => rfl
  exact .single hok nofun fun _ => rfl

/-- The Count byte is stored (43_transaction R203). -/
theorem execute_leadsTo_shortCheck : LeadsTo ok 3 (s.onLine q (.execute w (.countResult (some [c]))))
    (((s.setBufBytes .rxbuf 0 [c]).setRxLen 1).onLine q (.execute w (.shortCheck c))) := by
  refine .line hok nofun (t := s.onLine q (.execute w (.bindCount [c]))) ?_ fun _ => rfl
  refine .line hok nofun (t := s.onLine q (.execute w (.storeCount c))) ?_ fun _ => rfl
  refine .single hok nofun fun _ => ?_
  have := State.setBufBytes_onLine (q := q) .rxbuf 0 [c] (.execute w (.storeCount c)) s
  simp only [State.setBufBytes] at this
  rw [lineStep, executeLine, this]
  rfl

theorem execute_endsIn_frameShort (hc : c.toNat < 4) (h : Q (s.complete .frameShort)) :
    EndsIn ok 1 (s.onLine q (.execute w (.shortCheck c))) Q :=
  .line hok nofun (.complete h) fun _ => if_pos hc

theorem execute_endsIn_countError (hc : 4 ≤ c.toNat) (hmax : s.respLen.toNat < c.toNat) (h : Q (s.complete .frameCountError)) :
    EndsIn ok 2 (s.onLine q (.execute w (.shortCheck c))) Q := by
  refine .line hok nofun (u := s.onLine q (.execute w (.longCheck c))) ?_ fun _ => if_neg hc.not_gt
  exact .line hok nofun (.complete h) fun _ => if_pos hmax

/-- A Count in range: on to the body read (43_transaction R204). -/
theorem execute_leadsTo_readBody (hc : 4 ≤ c.toNat) (hmax : c.toNat ≤ s.respLen.toNat) :
    LeadsTo ok 4 (s.onLine q (.execute w (.shortCheck c)))
      ((s.setPhase .readBody).onLine q (.execute w (.readBody c .start))) := by
  refine .line hok nofun (t := s.onLine q (.execute w (.longCheck c))) ?_ fun _ => if_neg hc.not_gt
  refine .line hok nofun (t := s.onLine q (.execute w (.setReadBody c))) ?_ fun _ => if_neg hmax.not_gt
  refine .line hok nofun (t := (s.setPhase .readBody).onLine q (.execute w (.ifContinue c))) ?_ fun _ => rfl
  exact .single hok nofun fun _ => rfl

/-- In CONTINUE mode the body goes behind the Count byte (43_transaction R204). -/
theorem execute_leadsTo_setUnmarshal_of_continue (hmode : s.params.respReadMode = .continue) :
    LeadsTo ok 3 (s.onLine q (.execute w (.bodyResult c (some v))))
      (((s.setBufBytes .rxbuf 1 v).setRxLen c.toNat).onLine q (.execute w (.setUnmarshal c))) := by
  refine .line hok nofun (t := s.onLine q (.execute w (.bindBody c v))) ?_ fun _ => rfl
  refine .line hok nofun (t := s.onLine q (.execute w (.storeBody c v))) ?_ fun _ => rfl
  refine .single hok nofun fun _ => ?_
  have hmode' : (s.onLine q (.execute w (.storeBody c v))).params.respReadMode = .continue := hmode
  simp only [lineStep, executeLine, hmode']
  rw [State.setBufBytes_onLine]
  rfl

/-- In RESTART mode the whole frame is stored, its first byte to be compared with the Count (43_transaction R204). -/
theorem execute_leadsTo_restartCheck (hmode : s.params.respReadMode = .restart) :
    LeadsTo ok 3 (s.onLine q (.execute w (.bodyResult c (some v))))
      (((s.setBufBytes .rxbuf 0 v).setRxLen c.toNat).onLine q (.execute w (.restartCheck c v))) := by
  refine .line hok nofun (t := s.onLine q (.execute w (.bindBody c v))) ?_ fun _ => rfl
  refine .line hok nofun (t := s.onLine q (.execute w (.storeBody c v))) ?_ fun _ => rfl
  refine .single hok nofun fun _ => ?_
  have hmode' : (s.onLine q (.execute w (.storeBody c v))).params.respReadMode = .restart := hmode
  simp only [lineStep, executeLine, hmode']
  rw [State.setBufBytes_onLine]
  rfl

/-- The received frame is checked, and a valid one's status applied (43_transaction R206, 41_framer R148). -/
theorem execute_endsIn_of_setUnmarshal {r : Verdict} (hrsp : s.rsp = noFrame)
    (hr : unmarshalFrame (s.bufSlice .rxbuf 0 c.toNat) c.toNat = r)
    (h : Q ((s.setRsp (r.rsp s.params c.toNat)).complete (r.result s.params))) :
    EndsIn ok 5 (s.onLine q (.execute w (.setUnmarshal c))) Q := by
  have hclear : s.setRsp noFrame = s := by rw [← hrsp]; rfl
  refine .line hok nofun (u := (s.setPhase .unmarshal).onLine q (.execute w (.unmarshal c))) ?_ fun _ => rfl
  refine .line hok nofun (u := (s.setPhase .unmarshal).onLine q (.execute w (.checkFrame c r))) ?_ fun _ => by rw [← hr]; rfl
  cases r with
  | valid status =>
    refine .line hok nofun (u := (s.setPhase .unmarshal).onLine q (.execute w (.apply c status))) ?_ fun _ => rfl
    exact .line hok nofun (u := ((s.setPhase .unmarshal).setRsp (validRsp s.params c.toNat status)).onLine q
      (.complete (deviceResult (deviceCode s.params status)))) (.completion hok h) fun _ => rfl
  | frameShort | crcError | frameCountError =>
    simp only [Verdict.rsp, hclear] at h
    exact .line hok nofun (.complete (s := s.setPhase .unmarshal) h) fun _ => rfl

end

/-! ## The lines that call a primitive -/

section
variable {b t : State} {q : Seq} {w : Bool} {c : Byte} {R : BusReply → Bool} {l : ExecuteLine} {Q : State → Prop}

/-- A command's bus read of n bytes at `inside`, started in b, which goes on at `result` with what it returned. -/
structure CommandRead (q : Seq) (b : State) (n : Nat) (inside : ReadPos → Pos) (result : Option (List Byte) → Pos) : Prop where
  inside_ne : ∀ p, inside p ≠ .accepted
  read : ∀ p r t, BusFrame b t → lineStep (inside p) (some r) (t.onLine q (inside p)) =
    resume q inside (fun v t => t.onLine q (result v)) (busReadStep b.ioaddr n p (some r) t)

theorem execute_commandRead_count (q : Seq) (b : State) (w : Bool) :
    CommandRead q b 1 (fun p => .execute w (.readCount p)) fun v => .execute w (.countResult v) where
  inside_ne _ := nofun
  read p r t := by
    rintro ⟨pd, tr, x, rfl⟩
    exact callLine_onLine ((busBlind_onLine q _).busReadStep ..) fun _ _ => rfl

theorem execute_commandRead_body (q : Seq) (b : State) (w : Bool) (c : Byte) :
    CommandRead q b (bodyLength b.params c) (fun p => .execute w (.readBody c p)) fun v => .execute w (.bodyResult c v) where
  inside_ne _ := nofun
  read p r t := by
    rintro ⟨pd, tr, x, rfl⟩
    exact callLine_onLine ((busBlind_onLine q _).busReadStep ..) fun _ _ => rfl

section
variable {n m : Nat} {inside : ReadPos → Pos} {result : Option (List Byte) → Pos}

/-- A bus read, ended as the returns of `BusRead` let it. -/
theorem CommandRead.endsIn (h : CommandRead q b n inside result)
    (hret : ∀ tr v k, ReadRuns b.devAddr b.ioaddr n tr v → m ≤ k →
      EndsIn (Turn.replies R) k ((b.afterBus tr (if v.isSome then .idle else .failed)).onLine q (result v)) Q) :
    EndsIn (Turn.replies R) (m + 23) (b.onLine q (inside .start)) Q :=
  .call (inside := inside) (J := BusFrame b) h.inside_ne h.read (fun _ _ _ ht => ht.trans (busReadStep_frame ..)) (.refl b)
    (busRead_returns fun tr v k htr _ hk => hret tr v k htr hk)

end

theorem execute_failResync_onLine (p : ResyncPos) (r : BusReply) (t : State) :
    lineStep (.execute w (.failResync p)) (some r) (t.onLine q (.execute w (.failResync p))) =
      resume q (fun p => .execute w (.failResync p))
        (fun ok t => if ok then t.onLine q (.complete .commFail) else t.complete .resyncFail) (resyncStep p (some r) t) :=
  callLine_onLine ((busBlind_onLine q _).resyncStep ..) fun ok _ => by cases ok <;> rfl

/-- `ReadFail`, from the line l of a failed read: one resync, and no retry (43_transaction R205). -/
theorem execute_endsIn_of_readFail (hl : ∀ reply (t : State), executeLine w l reply t = t.goto (.execute w .failClearLen))
    (h : ∀ z ok, ResyncRuns z ok → AllowedTrace R z →
      Q (((t.setRxLen 0).afterBus z (resyncTState ok)).complete (if ok then .commFail else .resyncFail))) :
    EndsIn (Turn.replies R) 10 (t.onLine q (.execute w l)) Q := by
  have hok := replies_isCtrl R
  refine .line hok nofun (u := t.onLine q (.execute w .failClearLen)) ?_ fun reply => hl reply _
  refine .line hok nofun (u := (t.setRxLen 0).onLine q (.execute w .failSetResync)) ?_ fun _ => rfl
  refine .line hok nofun (u := ((t.setRxLen 0).setPhase .resync).onLine q (.execute w (.failResync .start))) ?_ fun _ => rfl
  refine .call (inside := fun p => .execute w (.failResync p)) (J := fun _ => True) (fun _ => nofun)
    (fun p r t _ => execute_failResync_onLine p r t) (fun _ _ _ _ => trivial) trivial ?_
  refine resync_returns (m := 1) fun z ok k hz hR hk => ?_
  cases ok with
  | false => exact .complete (h z false hz hR)
  | true => exact EndsIn.mono (.completion hok (h z true hz hR)) hk

end

/-! ## EXECUTE whatever the environment answers (43_transaction R209) -/

theorem bodyLength_of_continue {p : Params} (h : p.respReadMode = .continue) (c : Byte) : bodyLength p c = c.toNat - 1 := by
  simp only [bodyLength, h]

theorem bodyLength_of_restart {p : Params} (h : p.respReadMode = .restart) (c : Byte) : bodyLength p c = c.toNat := by
  simp only [bodyLength, h]

theorem getD_zero_of_head? {v : List Byte} {c : Byte} (h : v.head? = some c) : v.getD 0 0#8 = c := by
  cases v with
  | nil => cases h
  | cons d v => exact Option.some.inj h

theorem head?_of_getD_zero {v : List Byte} {c : Byte} (hv : 0 < v.length) (h : v.getD 0 0#8 = c) : v.head? = some c := by
  cases v with
  | nil => cases hv
  | cons d v => exact congrArg some h

/-- EXECUTE, from its command write in b on, has ended in t by a row of R209's table. -/
def ExecuteEnds (b : State) (f : List Byte) (t : State) : Prop :=
  ∃ m tr e, ExecuteRuns b f tr e ∧ StoresAt b { b with mem := m } .rxbuf 0 e.stored ∧ t = b.executed m tr e

/-- EXECUTE, from its command write in b on, has ended in t with the frame r checked, the events z since b and the command write's
attempt a (43_transaction R206). -/
def FrameEnds (b : State) (c : Byte) (r : List Byte) (z : List Event) (a : Nat) (t : State) : Prop :=
  ∃ m, StoresAt b { b with mem := m } .rxbuf 0 r ∧
    t = b.executed m z ⟨(unmarshalFrame r c.toNat).result b.params, .idle, a, some c.toNat, r,
      (unmarshalFrame r c.toNat).rsp b.params c.toNat⟩

section
variable {b : State} {q : Seq} {w : Bool} {c : Byte} {R : BusReply → Bool} {f : List Byte} {x y z : List Event} {a : Nat}
  (hrsp : b.rsp = noFrame)

theorem State.storeIn_count_storesAt {m : List Host.Cell} (hsize : b.respLen.toNat ≤ b.params.rxBufSize)
    (h : 0 < b.respLen.toNat) :
    StoresAt { b with mem := m } { b with mem := b.storeIn .rxbuf 0 [c] m } .rxbuf 0 [c] :=
  State.storeIn_storesAt (by simp [Buf.size]; omega)

include hrsp

/-- Completion with RSP cleared. -/
theorem ExecuteEnds.complete {m : List Host.Cell} {rx : Byte} {tr : List Event} {ph : Phase} {ts : TState} {code : ResultCode}
    {rxLen : Option Nat} {stored : List Byte} (hruns : ExecuteRuns b f tr ⟨code, ts, a, rxLen, stored, noFrame⟩)
    (hstores : StoresAt b { b with mem := m } .rxbuf 0 stored) (hrx : (rxLen.map (BitVec.ofNat 8)).getD b.rxLen = rx) :
    ExecuteEnds b f ((b.exchanged m rx tr ph ts a).complete code) := by
  refine ⟨m, tr, _, hruns, hstores, ?_⟩
  rw [State.executed, ← hrsp, hrx]
  rfl

/-- From the received frame r on (43_transaction R206). -/
theorem execute_endsIn_of_frame {m : List Host.Cell} {rx : Byte} {r : List Byte} (hlen : r.length = c.toNat)
    (hstores : StoresAt b { b with mem := m } .rxbuf 0 r) (hrx : rx = BitVec.ofNat 8 c.toNat) :
    EndsIn (Turn.replies R) 5 ((b.exchanged m rx z .readBody .idle a).onLine q (.execute w (.setUnmarshal c)))
      (FrameEnds b c r z a) := by
  refine execute_endsIn_of_setUnmarshal (replies_isCtrl R) hrsp rfl ⟨m, hstores, ?_⟩
  have hslice : (b.exchanged m rx z .readBody .idle a).bufSlice .rxbuf 0 c.toNat = r := hlen ▸ hstores.bufSlice
  rw [hslice, hrx]
  rfl

/-- The Count byte in RXBUF, the body v that was read makes up the frame r (43_transaction R204). -/
theorem execute_endsIn_of_bodyBytes {v r : List Byte} (hsize : b.respLen.toNat ≤ b.params.rxBufSize)
    (hmin : 4 ≤ c.toNat) (hmax : c.toNat ≤ b.respLen.toNat) (hv : v.length = bodyLength b.params c)
    (hr : b.params.respReadMode = .continue ∧ r = c :: v ∨ b.params.respReadMode = .restart ∧ r = v ∧ v.head? = some c) :
    EndsIn (Turn.replies R) 9
      ((b.exchanged (b.storeIn .rxbuf 0 [c] b.mem) 1#8 z .readBody .idle a).onLine q (.execute w (.bodyResult c (some v))))
      (FrameEnds b c r z a) := by
  have hok := replies_isCtrl R
  have hcount := State.storeIn_count_storesAt (c := c) (m := b.mem) hsize (by omega)
  obtain ⟨hmode, rfl⟩ | ⟨hmode, rfl, hhead⟩ := hr
  · rw [bodyLength_of_continue hmode] at hv
    refine EndsIn.mono (n := 3 + 5) ((execute_leadsTo_setUnmarshal_of_continue hok (by exact hmode)).endsIn ?_) (by omega)
    rw [State.exchanged_setBufBytes]
    refine execute_endsIn_of_frame hrsp (by simp [hv]; omega) (hcount.append ?_) rfl
    exact State.storeIn_storesAt (by simp [Buf.size, hv]; omega)
  · rw [bodyLength_of_restart hmode] at hv
    refine (execute_leadsTo_restartCheck hok (by exact hmode)).endsIn (m := 6) ?_
    rw [State.exchanged_setBufBytes]
    refine .line hok nofun ?_ fun _ => if_neg (not_not_intro (getD_zero_of_head? hhead))
    exact execute_endsIn_of_frame hrsp hv (hcount.overwrite (State.storeIn_storesAt (by simp [Buf.size, hv]; omega))
      (by simp; omega)) rfl

/-- In RESTART mode a body v with another first byte ends the exchange (43_transaction R204). -/
theorem execute_endsIn_of_restartDiffers {v : List Byte} (hsize : b.respLen.toNat ≤ b.params.rxBufSize)
    (hmin : 4 ≤ c.toNat) (hmax : c.toNat ≤ b.respLen.toNat) (hmode : b.params.respReadMode = .restart)
    (hx : RetryRuns b.devAddr b.ioaddr f b.snapRetries 1 x .ok a) (hy : ReadRuns b.devAddr b.ioaddr 1 y (some [c]))
    (hz : ReadRuns b.devAddr b.ioaddr c.toNat z (some v)) (hv : v.length = c.toNat) (hhead : v.head? ≠ some c) :
    EndsIn (Turn.replies R) 4
      ((b.exchanged (b.storeIn .rxbuf 0 [c] b.mem) 1#8 (x ++ .wait (Config.procDelay b.opcode b.mode) :: y ++ z) .readBody .idle
        a).onLine q (.execute w (.bodyResult c (some v))))
      (ExecuteEnds b f) := by
  have hok := replies_isCtrl R
  have hcount := State.storeIn_count_storesAt (c := c) (m := b.mem) hsize (by omega)
  refine (execute_leadsTo_restartCheck hok (by exact hmode)).endsIn (m := 1) ?_
  rw [State.exchanged_setBufBytes]
  have hne : v.getD 0 0#8 ≠ c := fun h => hhead (head?_of_getD_zero (by omega) h)
  refine .line hok nofun (.complete ?_) fun _ => if_pos hne
  exact .complete hrsp (ph := .readBody) (.restartDiffers hx hy hmin hmax hmode hz hhead)
    (hcount.overwrite (State.storeIn_storesAt (by simp [Buf.size, hv]; omega)) (by simp; omega)) rfl

/-- From the body read's answer on (43_transaction R204 to R207). -/
theorem execute_endsIn_of_body {v : Option (List Byte)} (hsize : b.respLen.toNat ≤ b.params.rxBufSize)
    (hx : RetryRuns b.devAddr b.ioaddr f b.snapRetries 1 x .ok a) (hy : ReadRuns b.devAddr b.ioaddr 1 y (some [c]))
    (hmin : 4 ≤ c.toNat) (hmax : c.toNat ≤ b.respLen.toNat)
    (hz : ReadRuns b.devAddr b.ioaddr (bodyLength b.params c) z v) :
    EndsIn (Turn.replies R) 10
      ((b.exchanged (b.storeIn .rxbuf 0 [c] b.mem) 1#8 (x ++ .wait (Config.procDelay b.opcode b.mode) :: y ++ z) .readBody
        (if v.isSome then .idle else .failed) a).onLine q (.execute w (.bodyResult c v)))
      (ExecuteEnds b f) := by
  cases v with
  | none =>
    refine execute_endsIn_of_readFail (fun _ _ => rfl) fun u ok hu _ => ?_
    have hstate := State.exchanged_afterBus (b := b) (m := b.storeIn .rxbuf 0 [c] b.mem) (rx := 0#8) (ph := .readBody)
      (x := .failed) (a := a) (tr := x ++ .wait (Config.procDelay b.opcode b.mode) :: y ++ z) u (resyncTState ok)
    exact congrArg (State.complete _) hstate ▸ .complete hrsp (.bodyFails hx hy hmin hmax hz hu)
      (State.storeIn_count_storesAt hsize (by omega)) rfl
  | some v =>
    have hlen : v.length = bodyLength b.params c := by cases hz with | done _ _ hv => exact hv
    have hframe : ∀ r, (b.params.respReadMode = .continue ∧ r = c :: v ∨
        b.params.respReadMode = .restart ∧ r = v ∧ v.head? = some c) → EndsIn (Turn.replies R) 10
          ((b.exchanged (b.storeIn .rxbuf 0 [c] b.mem) 1#8 (x ++ .wait (Config.procDelay b.opcode b.mode) :: y ++ z) .readBody
            .idle a).onLine q (.execute w (.bodyResult c (some v)))) (ExecuteEnds b f) := by
      exact fun r hr => ((execute_endsIn_of_bodyBytes hrsp hsize hmin hmax hlen hr).mono (by omega)).imp
        fun t ⟨m, hstores, ht⟩ => ⟨m, _, _, .frame hx hy hmin hmax hz hr, hstores, ht⟩
    cases hmode : b.params.respReadMode
    · exact hframe _ (.inl ⟨hmode, rfl⟩)
    · by_cases hhead : v.head? = some c
      · exact hframe _ (.inr ⟨hmode, rfl, hhead⟩)
      · rw [bodyLength_of_restart hmode] at hz hlen
        exact (execute_endsIn_of_restartDiffers hrsp hsize hmin hmax hmode hx hy hz hlen hhead).mono (by omega)

/-- From the count read's answer on (43_transaction R203 to R207). -/
theorem execute_endsIn_of_count {v : Option (List Byte)} (hsize : b.respLen.toNat ≤ b.params.rxBufSize)
    (hresp : 4 ≤ b.respLen.toNat) (hx : RetryRuns b.devAddr b.ioaddr f b.snapRetries 1 x .ok a)
    (hy : ReadRuns b.devAddr b.ioaddr 1 y v) :
    EndsIn (Turn.replies R) 40
      ((b.exchanged b.mem b.rxLen (x ++ .wait (Config.procDelay b.opcode b.mode) :: y) .readCount
        (if v.isSome then .idle else .failed) a).onLine q (.execute w (.countResult v)))
      (ExecuteEnds b f) := by
  have hok := replies_isCtrl R
  cases v with
  | none =>
    refine EndsIn.mono (n := 10) (execute_endsIn_of_readFail (fun _ _ => rfl) fun u ok hu _ => ?_) (by omega)
    have hstate := State.exchanged_afterBus (b := b) (m := b.mem) (rx := 0#8) (ph := .readCount) (x := .failed) (a := a)
      (tr := x ++ .wait (Config.procDelay b.opcode b.mode) :: y) u (resyncTState ok)
    exact congrArg (State.complete _) hstate ▸ .complete hrsp (.countFails hx hy hu) (.nil ..) rfl
  | some v =>
    obtain ⟨c, rfl⟩ : ∃ c, v = [c] := List.length_eq_one_iff.1 (by cases hy with | done _ _ hv => exact hv)
    refine (execute_leadsTo_shortCheck hok).endsIn (m := 37) ?_
    rw [State.exchanged_setBufBytes]
    have hstores := State.storeIn_count_storesAt (c := c) (m := b.mem) hsize (by omega)
    by_cases hmin : c.toNat < 4
    · exact EndsIn.mono (execute_endsIn_frameShort hok hmin (.complete hrsp (.countShort hx hy hmin) hstores rfl)) (by omega)
    by_cases hmax : b.respLen.toNat < c.toNat
    · exact EndsIn.mono (execute_endsIn_countError hok (by omega) hmax
        (.complete hrsp (.countLong hx hy (by omega) hmax) hstores rfl)) (by omega)
    refine (execute_leadsTo_readBody hok (by omega) (by exact Nat.le_of_not_lt hmax)).endsIn (m := 33) ?_
    refine (execute_commandRead_body q _ w c).endsIn (m := 10) fun z v k hz hk => ?_
    have hstate := State.exchanged_afterBus (b := b) (m := b.storeIn .rxbuf 0 [c] b.mem) (rx := 1#8) (ph := .readBody) (x := .idle)
      (a := a) (tr := x ++ .wait (Config.procDelay b.opcode b.mode) :: y) z (if v.isSome then .idle else .failed)
    have hend := (execute_endsIn_of_body (q := q) (w := w) (R := R) hrsp hsize hx hy (by omega) (Nat.le_of_not_lt hmax) hz).mono hk
    rw [← hstate] at hend
    exact hend

/-- From the command write on (43_transaction R199 to R209). -/
theorem execute_endsIn_of_write (hq : b.seq = some q) (hslice : b.bufSlice .txbuf 0 b.frameLen.toNat = f)
    (hresp : 4 ≤ b.respLen.toNat) (hsize : b.respLen.toNat ≤ b.params.rxBufSize) :
    EndsIn (Turn.replies R) (67 + 2 + b.snapRetries * (3 * f.length + 27) + (3 * f.length + 27))
      (b.onLine q (.execute w (.write retryStart))) (ExecuteEnds b f) := by
  have hok := replies_isCtrl R
  refine (execute_commandWrite hq hslice).endsIn (retryStart_returns fun x code a k hx hk => ?_)
  by_cases hcode : code = .ok
  · subst hcode
    refine EndsIn.mono (n := 4 + 63) ((execute_leadsTo_readCount hok).endsIn ?_) hk
    refine (execute_commandRead_count q _ w).endsIn (m := 40) fun y v j hy hj => ?_
    have hstate := State.exchanged_afterBus (b := b) (m := b.mem) (rx := b.rxLen) (ph := .readCount) (x := .idle) (a := a)
      (tr := x ++ [.wait (Config.procDelay b.opcode b.mode)]) y (if v.isSome then .idle else .failed)
    have hend := (execute_endsIn_of_count (q := q) (w := w) (R := R) hrsp hsize hresp hx hy).mono hj
    rw [List.append_assoc] at hstate
    rw [← List.singleton_append, ← hstate, ← State.exchanged_recordWait] at hend
    exact hend
  · refine EndsIn.mono (n := 1) (.line hok nofun (.complete ?_) fun _ => if_neg hcode) (by omega)
    have hts : resyncTState (code != .resyncFail) = resyncTState (code == .commFail) := by
      obtain rfl | rfl | rfl := hx.answer
      · exact absurd rfl hcode
      · rfl
      · rfl
    rw [State.afterRetry, if_neg hcode, hts]
    exact .complete hrsp (m := b.mem) (ph := .resync) (.writeFails hx hcode) (.nil ..) rfl

end

end Sys2Proof.Machine
end

section
/-! EXECUTE with its command write and count read granted, and how it ends then (43_transaction R199 to R207). -/

namespace Sys2Proof.Machine

/-! ## Whatever the environment answers -/

section
variable {s : State} {f : List Byte} {w : Bool} {tr : List Event} {e : ExecuteEnd}

/-- The end of an EXECUTE, told from its start. -/
theorem State.readyToWrite_executed (m : List Host.Cell) : (s.readyToWrite f w).executed m tr e =
    { s with
      mem := m, pending := none, frameLen := BitVec.ofNat 8 f.length, attempts := BitVec.ofNat 4 e.attempts,
      rxLen := (e.rxLen.map (BitVec.ofNat 8)).getD s.rxLen, rsp := e.rsp, tstate := e.tstate,
      trace := s.trace ++ wakeTrace w ++ tr, result := e.code, phase := .idle, busy := false, done := true, seq := none } := by
  rw [State.readyToWrite_eq]
  rfl

/-- The frame built changes nothing of what a run's row reads. -/
theorem ExecuteRuns.of_readyToWrite (h : ExecuteRuns (s.readyToWrite f w) f tr e) : ExecuteRuns s f tr e := by
  rw [State.readyToWrite_eq] at h
  cases h with
  | writeFails hx hw => exact .writeFails hx hw
  | countFails hx hy hz => exact .countFails hx hy hz
  | countShort hx hy hc => exact .countShort hx hy hc
  | countLong hx hy hmin hmax => exact .countLong hx hy hmin hmax
  | bodyFails hx hy hmin hmax hz hu => exact .bodyFails hx hy hmin hmax hz hu
  | restartDiffers hx hy hmin hmax hmode hz hhead => exact .restartDiffers hx hy hmin hmax hmode hz hhead
  | frame hx hy hmin hmax hz hr => exact .frame hx hy hmin hmax hz hr

/-- EXECUTE, its checks passed, ends by a row of R209's table. -/
theorem execute_endsIn {R : BusReply → Bool} {q : Seq} (hq : s.seq = some q) (hp : s.params.legal = true)
    (hts : s.tstate ≠ .failed) (hmin : 4 ≤ s.respLen.toNat) (hmax : s.respLen.toNat ≤ s.params.rxBufSize)
    (hf : s.commandFrame = some f) :
    EndsIn (Turn.replies R) (beforeWrite w + (67 + 2 + s.snapRetries * (3 * f.length + 27) + (3 * f.length + 27)))
      (s.onLine q (firstLine (.execute w))) (ExecuteEnds (s.readyToWrite f w) f) := by
  refine (execute_leadsTo_write hts hmin hmax hf).endsIn ?_
  have hslice := State.readyToWrite_bufSlice (w := w) hp hf
  have hready := s.readyToWrite_eq f w
  generalize s.readyToWrite f w = b at hslice hready
  have hk : b.snapRetries = s.snapRetries := by rw [hready]; rfl
  rw [← hk]
  exact execute_endsIn_of_write (by rw [hready]; rfl) (by rw [hready]; exact hq) hslice (by rw [hready]; exact hmin)
    (by rw [hready]; exact hmax)

end

/-! ## The command write and the count read granted -/

/-- A last step of a primitive, or another whose line the answers fix. -/
theorem LeadsTo.ofReply {R : BusReply → Bool} {s t : State} {q : Seq} {p : Pos} (hp : p ≠ .accepted)
    (h : ∀ r, R r = true → lineStep p (some r) (s.onLine q p) = t) : LeadsTo (Turn.replies R) 1 (s.onLine q p) t := by
  refine .step hp fun x hx => ?_
  cases x with
  | host a | reset => cases hx
  | ctrl reply => cases reply with
    | none => cases hx
    | some r => exact ⟨some r, rfl, h r hx ▸ .refl _⟩

section
variable {R : BusReply → Bool} {q : Seq} {b : State} {n : Nat} {v : List Byte} {inside : ReadPos → Pos}
  {result : Option (List Byte) → Pos}

/-- Steps inside a command's bus read. -/
theorem CommandRead.leadsTo {m : Nat} {p p' : ReadPos} {x y : TState} {tr tr' : List Event} (h : CommandRead q b n inside result)
    (hwalk : Walks (busReadStep b.ioaddr n) R m p (b.afterBus tr x) p' (b.afterBus tr' y)) :
    LeadsTo (Turn.replies R) m ((b.afterBus tr x).onLine q (inside p)) ((b.afterBus tr' y).onLine q (inside p')) :=
  .walk (m := 0) (J := BusFrame b) h.inside_ne h.read (fun _ _ _ ht => ht.trans (busReadStep_frame ..)) ⟨none, tr, x, rfl⟩ hwalk
    fun _ => .refl _

/-- Everything granted and acknowledged, up to the line that asks for the data. -/
theorem CommandRead.leadsTo_rdbytes (h : CommandRead q b n inside result) (hR : ∀ r, R r = true → r.grants = true) :
    LeadsTo (Turn.replies R) 17 (b.onLine q (inside .start))
      ((b.afterBus (readHead b.devAddr b.ioaddr) .addrR).onLine q (inside .rdbytes)) :=
  .walk (m := 0) (J := BusFrame b) h.inside_ne h.read (fun _ _ _ ht => ht.trans (busReadStep_frame ..)) (.refl b)
    (busRead_walks_to_rdbytes hR n) fun _ => .refl _

theorem CommandRead.leadsTo_lenCheck (h : CommandRead q b n inside result) (hR : ∀ r, R r = true → r.data = v) :
    LeadsTo (Turn.replies R) 1 ((b.afterBus (readHead b.devAddr b.ioaddr) .addrR).onLine q (inside .rdbytes))
      ((b.afterBus (readHead b.devAddr b.ioaddr ++ [.rdbytes n v]) .addrR).onLine q (inside (.lenCheck v))) :=
  h.leadsTo (busRead_walks_rdbytes hR n _ _)

/-- As many bytes as were asked for (42_bus R164). -/
theorem CommandRead.leadsTo_some (h : CommandRead q b n inside result) (hv : v.length = n) :
    LeadsTo (Turn.replies R) 5
      ((b.afterBus (readHead b.devAddr b.ioaddr ++ [.rdbytes n v]) .addrR).onLine q (inside (.lenCheck v)))
      ((b.afterBus (readTrace b.devAddr b.ioaddr n v) .idle).onLine q (result (some v))) := by
  refine (h.leadsTo (busRead_walks_data hv _ _)).trans (.ofReply (h.inside_ne _) fun r _ => ?_)
  exact (h.read _ r _ ⟨none, _, _, rfl⟩).trans rfl

/-- Another number of bytes (42_bus R167). -/
theorem CommandRead.leadsTo_none (h : CommandRead q b n inside result) (hv : v.length ≠ n) :
    LeadsTo (Turn.replies R) 1
      ((b.afterBus (readHead b.devAddr b.ioaddr ++ [.rdbytes n v]) .addrR).onLine q (inside (.lenCheck v)))
      ((b.afterBus (readTrace b.devAddr b.ioaddr n v) .failed).onLine q (result none)) := by
  refine .ofReply (h.inside_ne _) fun r _ => (h.read _ r _ ⟨none, _, _, rfl⟩).trans ?_
  rw [busReadStep, if_pos hv, readTrace_eq, ← State.afterBus_afterBus _ _ .addrR]
  rfl

end

/-- The events of the granted command write, and the wait (43_transaction R199, R202). -/
def State.sentTrace (f : List Byte) (b : State) : List Event :=
  writeTrace b.devAddr b.ioaddr f ++ [.wait (Config.procDelay b.opcode b.mode)]

/-- At the count read, the command write granted. -/
def State.sent (f : List Byte) (b : State) : State := b.exchanged b.mem b.rxLen (b.sentTrace f) .readCount .idle 1

/-- The data of the count read, v, have just come. -/
def State.counting (f v : List Byte) (b : State) : State :=
  (b.sent f).afterBus (readHead b.devAddr b.ioaddr ++ [.rdbytes 1 v]) .addrR

/-- The events up to the end of the count read. -/
def State.countTrace (f v : List Byte) (b : State) : List Event := b.sentTrace f ++ readTrace b.devAddr b.ioaddr 1 v

section
variable {R : BusReply → Bool} {s b : State} {q : Seq} {w : Bool} {c : Byte} {f v : List Byte} {n : Nat} {Q : State → Prop}

theorem State.countTrace_readyToWrite : (s.readyToWrite f w).countTrace f v =
    writeTrace s.devAddr s.ioaddr f ++ [.wait (Config.procDelay s.opcode s.mode)] ++ readTrace s.devAddr s.ioaddr 1 v := by
  rw [State.readyToWrite_eq]
  rfl

theorem State.sent_afterBus (x : TState) : (b.sent f).afterBus (readTrace b.devAddr b.ioaddr 1 v) x =
    b.exchanged b.mem b.rxLen (b.countTrace f v) .readCount x 1 :=
  State.exchanged_afterBus ..

/-- Fewer replies allow fewer entries. -/
theorem AllowedTrace.mono {R' : BusReply → Bool} {tr : List Event} (h : AllowedTrace R tr)
    (hR : ∀ r, R r = true → R' r = true) : AllowedTrace R' tr := fun e he => by
  obtain ⟨a, r, hr, rfl⟩ := h e he
  exact ⟨a, r, hR r hr, rfl⟩

theorem BusReply.exists_delivers (v : List Byte) : ∃ r, BusReply.delivers v r = true :=
  ⟨⟨.ok, .ok, .ack, v⟩, by simp [BusReply.delivers, BusReply.grants]⟩

/-- From the command write to the data of the count read. -/
theorem execute_leadsTo_counting (hq : b.seq = some q) (hslice : b.bufSlice .txbuf 0 b.frameLen.toNat = f) :
    LeadsTo (Turn.replies (BusReply.delivers v)) (3 * f.length + 41) (b.onLine q (.execute w (.write retryStart)))
      ((b.counting f v).onLine q (.execute w (.readCount (.lenCheck v)))) := by
  have hgrants : ∀ r, BusReply.delivers v r = true → r.grants = true := fun r hr => (BusReply.delivers_iff.1 hr).1
  have hwrite := (execute_commandWrite (wakeFirst := w) hq hslice).leadsTo
    (retry_walks_granted (BusReply.exists_delivers v) hgrants) fun _ _ => rfl
  have hread := execute_commandRead_count q (b.sent f) w
  have hwait := (execute_leadsTo_readCount (s := b.retried (writeTrace b.devAddr b.ioaddr f) .write .idle 1) (q := q) (w := w)
    (replies_isCtrl (BusReply.delivers v)))
  have hsent : ((b.retried (writeTrace b.devAddr b.ioaddr f) .write .idle 1).recordWait
      (Config.procDelay b.opcode b.mode)).setPhase .readCount = b.sent f := by
    rw [State.sent, State.sentTrace, ← State.exchanged_recordWait]
    rfl
  refine (show 3 * f.length + 18 + 1 + 4 + 17 + 1 = 3 * f.length + 41 by omega) ▸ ((hwrite.trans (hsent ▸ hwait)).trans
    (hread.leadsTo_rdbytes hgrants)).trans (hread.leadsTo_lenCheck fun r hr => (BusReply.delivers_iff.1 hr).2)

/-- EXECUTE, its command write and count read granted, ends as it ends from the data of the count read on. -/
theorem exec_execute_of_counting {Q : State → State → Prop} (hstart : s.atStart = true) (hp : s.params.legal = true)
    (hts : s.tstate ≠ .failed) (hmin : 4 ≤ s.respLen.toNat) (hmax : s.respLen.toNat ≤ s.params.rxBufSize)
    (hf : s.commandFrame = some f) (hturns : s.turns.all (Turn.replies (BusReply.delivers v)) = true)
    (hlen : 3 * f.length + 52 + n ≤ s.turns.length)
    (h : ∀ q b, b.params = s.params → b.respLen = s.respLen → b.rsp = noFrame →
      EndsIn (Turn.replies (BusReply.delivers v)) n ((b.counting f v).onLine q (.execute w (.readCount (.lenCheck v)))) (Q b)) :
    ∃ t left, exec (.execute w) s = .next { t with turns := left } ∧ Q (s.readyToWrite f w) t := by
  refine exec_of_endsIn_of_seq hstart hturns hlen fun q hq => ?_
  have hend := (execute_leadsTo_write (w := w) hts hmin hmax hf).trans (execute_leadsTo_counting (w := w) (v := v) (q := q)
    (by rw [State.readyToWrite_eq]; exact hq) (State.readyToWrite_bufSlice hp hf))
  refine EndsIn.mono (hend.endsIn (h q _ ?_ ?_ ?_)) (by cases w <;> simp [beforeWrite] <;> omega)
  · rw [State.readyToWrite_eq]; rfl
  · rw [State.readyToWrite_eq]; rfl
  · rw [State.readyToWrite_eq]; rfl

/-- The one byte of the count read has come, and is stored (43_transaction R203). -/
theorem execute_leadsTo_shortCheck_of_counting :
    LeadsTo (Turn.replies R) 8 ((b.counting f [c]).onLine q (.execute w (.readCount (.lenCheck [c]))))
      ((b.exchanged (b.storeIn .rxbuf 0 [c] b.mem) 1#8 (b.countTrace f [c]) .readCount .idle 1).onLine q
        (.execute w (.shortCheck c))) := by
  refine ((execute_commandRead_count q (b.sent f) w).leadsTo_some rfl).trans (n := 3) ?_
  have hstore := execute_leadsTo_shortCheck (q := q) (w := w) (c := c) (replies_isCtrl R)
    (s := b.exchanged b.mem b.rxLen (b.countTrace f [c]) .readCount .idle 1)
  rw [State.exchanged_setBufBytes, ← State.sent_afterBus] at hstore
  exact hstore

/-- Another number of bytes has come (43_transaction R205). -/
theorem execute_endsIn_of_wrongCount (hv : v.length ≠ 1) (hrsp : b.rsp = noFrame) :
    EndsIn (Turn.replies (BusReply.delivers v)) 11 ((b.counting f v).onLine q (.execute w (.readCount (.lenCheck v))))
      (· = b.executed b.mem (b.countTrace f v ++ resyncTrace) ⟨.commFail, .idle, 1, some 0, [], noFrame⟩) := by
  refine ((execute_commandRead_count q (b.sent f) w).leadsTo_none hv).endsIn
    (execute_endsIn_of_readFail (fun _ _ => rfl) fun z ok hz hR => ?_)
  obtain ⟨rfl, rfl⟩ := hz.eq_of_grants (AllowedTrace.mono hR fun r hr => (BusReply.delivers_iff.1 hr).1)
  have hstate := State.exchanged_afterBus (b := b) (m := b.mem) (rx := 0#8) (ph := .readCount) (x := .failed) (a := 1)
    (tr := b.countTrace f v) resyncTrace .idle
  rw [State.executed, ← hrsp]
  calc _ = (((b.exchanged b.mem b.rxLen (b.countTrace f v) .readCount .failed 1).setRxLen 0).afterBus resyncTrace
          .idle).complete .commFail := by rw [← State.sent_afterBus]; rfl
    _ = _ := congrArg (State.complete .commFail) hstate

/-- A Count out of range has come (43_transaction R203). -/
theorem execute_endsIn_of_badCount (hc : c.toNat < 4 ∨ b.respLen.toNat < c.toNat) (hrsp : b.rsp = noFrame) :
    EndsIn (Turn.replies R) 10 ((b.counting f [c]).onLine q (.execute w (.readCount (.lenCheck [c]))))
      (· = b.executed (b.storeIn .rxbuf 0 [c] b.mem) (b.countTrace f [c])
        ⟨if c.toNat < 4 then .frameShort else .frameCountError, .idle, 1, some 1, [c], noFrame⟩) := by
  have hok := replies_isCtrl R
  refine execute_leadsTo_shortCheck_of_counting.endsIn (m := 2) ?_
  rw [State.executed, ← hrsp]
  by_cases hmin : c.toNat < 4
  · rw [if_pos hmin]
    exact EndsIn.mono (execute_endsIn_frameShort hok hmin rfl) (by omega)
  · rw [if_neg hmin]
    exact execute_endsIn_countError hok (by omega) (hc.resolve_left hmin) rfl

end

/-- Settles O31: the count read delivers one byte, which the checks refuse. -/
theorem executeChecksTheCountByte : Obligations.ExecuteChecksTheCountByte := by
  intro s w c f hstart hp hidle hmin hmax hf hc hturns hlen
  obtain ⟨_, left, hexec, rfl⟩ := exec_execute_of_counting (w := w) (n := 10) hstart hp (by simp [hidle])
    hmin hmax hf hturns (by omega) fun q b _ hresp hrsp => execute_endsIn_of_badCount (q := q) (w := w) (f := f) (hresp ▸ hc) hrsp
  refine ⟨_, s.readyToWrite f w, hexec, State.readyToWrite_storesAt hp hf, State.storeIn_count_storesAt ?_ ?_, ?_⟩
  · rw [State.readyToWrite_eq]; exact hmax
  · rw [State.readyToWrite_eq]; exact Nat.lt_of_lt_of_le (by decide) hmin
  · rw [State.readyToWrite_executed, hidle, State.countTrace_readyToWrite]
    simp only [List.append_assoc]
    rfl

/-- Settles O32: the two ends of R205, and every row of R209's table. -/
theorem executeReadFailureIsNotRetried : Obligations.ExecuteReadFailureIsNotRetried := by
  refine ⟨fun s w f v hstart hp hidle hmin hmax hf hv hturns hlen => ?_,
    fun s t w f hstart hp hidle hmin hmax hf hturns hexec hend => ?_⟩
  · obtain ⟨_, left, hexec, rfl⟩ := exec_execute_of_counting (w := w) (n := 11) hstart hp (by simp [hidle]) hmin hmax hf hturns
      (by omega) fun q b _ _ hrsp => execute_endsIn_of_wrongCount (q := q) (w := w) (f := f) hv hrsp
    refine ⟨_, hexec, State.readyToWrite_storesAt (w := w) hp hf, ?_⟩
    rw [State.readyToWrite_executed, hidle, State.countTrace_readyToWrite]
    simp only [List.append_assoc]
    rfl
  · obtain ⟨_, left, rfl, m, tr, e, hruns, hstores, rfl⟩ := completed_of_endsIn_of_seq hstart hturns hexec hend fun q hq =>
      execute_endsIn (w := w) hq hp (by simp [hidle]) hmin hmax hf
    refine ⟨s.readyToWrite f w, tr, e, hruns.of_readyToWrite, State.readyToWrite_storesAt hp hf, hstores, ?_⟩
    rw [State.readyToWrite_executed]
    rfl

end Sys2Proof.Machine
end

section
/-! EXECUTE when the bus grants everything, its two reads answered by different moves (43_transaction R195 to R206). -/

namespace Sys2Proof.Machine

section
variable {okA okB okC : Turn → Bool} {a n k : Nat} {s t u : State} {Q : State → Prop} {first later : List Turn}

/-- Moves of two kinds, the change between them anywhere in the middle one of three stretches. -/
theorem LeadsTo.runTurns_append (hA : LeadsTo okA a s t) (hB : LeadsTo okB n t u) (hC : EndsIn okC k u Q)
    (hAB : ∀ x, okA x = true → okB x = true) (hCB : ∀ x, okC x = true → okB x = true) (hfirst : first.all okA = true)
    (hlater : later.all okC = true) (ha : a ≤ first.length) (hn : first.length ≤ a + n) (hk : n + k ≤ later.length) :
    ∃ v left, State.runTurns (first ++ later) s = { v with turns := left } ∧ Q v := by
  obtain ⟨fa, fb, rfl, rfl⟩ : ∃ fa fb, first = fa ++ fb ∧ fa.length = a :=
    ⟨_, _, (List.take_append_drop a first).symm, List.length_take_of_le ha⟩
  rw [List.length_append] at hn
  obtain ⟨la, lb, rfl, hla⟩ : ∃ la lb, later = la ++ lb ∧ la.length = n - fb.length :=
    ⟨_, _, (List.take_append_drop (n - fb.length) later).symm, List.length_take_of_le (by omega)⟩
  rw [List.all_append, Bool.and_eq_true] at hfirst hlater
  obtain ⟨hfa, hfb⟩ := hfirst
  obtain ⟨hla', hlb⟩ := hlater
  have hmiddle : (fb ++ la).all okB = true := by
    rw [List.all_append, Bool.and_eq_true]
    exact ⟨List.all_eq_true.2 fun x hx => hAB x (List.all_eq_true.1 hfb x hx),
      List.all_eq_true.2 fun x hx => hCB x (List.all_eq_true.1 hla' x hx)⟩
  rw [List.append_assoc, hA fa _ hfa rfl, ← List.append_assoc, hB _ lb hmiddle (by rw [List.length_append]; omega)]
  exact hC lb hlb (by rw [List.length_append] at hk; omega)

end

theorem Turn.replies_mono {R R' : BusReply → Bool} (hR : ∀ r, R r = true → R' r = true) (x : Turn)
    (hx : x.replies R = true) : x.replies R' = true := by
  cases x with
  | host a | reset => cases hx
  | ctrl reply => cases reply with
    | none => cases hx
    | some r => exact hR r hx

/-- The body of the frame r is what the body read asks for behind, or with, the Count byte (43_transaction R204). -/
theorem drop_bodyLength {p : Params} {c : Byte} {r : List Byte} (hlen : r.length = c.toNat) (hhead : r.head? = some c)
    (hmin : 4 ≤ c.toNat) : (r.drop (c.toNat - bodyLength p c)).length = bodyLength p c ∧
      (p.respReadMode = .continue ∧ r = c :: r.drop (c.toNat - bodyLength p c) ∨
        p.respReadMode = .restart ∧ r = r.drop (c.toNat - bodyLength p c) ∧
          (r.drop (c.toNat - bodyLength p c)).head? = some c) := by
  cases hmode : p.respReadMode
  · rw [bodyLength_of_continue hmode, show c.toNat - (c.toNat - 1) = 1 by omega]
    refine ⟨by rw [List.length_drop, hlen], .inl ⟨rfl, ?_⟩⟩
    rw [List.drop_one, List.cons_head?_tail hhead]
  · rw [bodyLength_of_restart hmode, Nat.sub_self, List.drop_zero]
    exact ⟨hlen, .inr ⟨rfl, rfl, hhead⟩⟩

section
variable {b : State} {q : Seq} {w : Bool} {c : Byte} {f v r : List Byte} {R : BusReply → Bool}

/-- At the body read, the command write and the count read granted. -/
def State.bodyAwaited (f : List Byte) (c : Byte) (b : State) : State :=
  b.exchanged (b.storeIn .rxbuf 0 [c] b.mem) 1#8 (b.countTrace f [c]) .readBody .idle 1

/-- From the Count byte, in range, to the data of the body read. -/
theorem execute_leadsTo_bodyData (hR : ∀ r, R r = true → r.grants = true) (hmin : 4 ≤ c.toNat)
    (hmax : c.toNat ≤ b.respLen.toNat) :
    LeadsTo (Turn.replies R) 29 ((b.counting f [c]).onLine q (.execute w (.readCount (.lenCheck [c]))))
      (((b.bodyAwaited f c).afterBus (readHead b.devAddr b.ioaddr) .addrR).onLine q (.execute w (.readBody c .rdbytes))) :=
  (execute_leadsTo_shortCheck_of_counting.trans (execute_leadsTo_readBody (replies_isCtrl R) hmin (by exact hmax))).trans
    ((execute_commandRead_body q (b.bodyAwaited f c) w c).leadsTo_rdbytes hR)

/-- From the data of the body read to the end (43_transaction R204, R206). -/
theorem execute_endsIn_of_bodyData (hrsp : b.rsp = noFrame) (hsize : b.respLen.toNat ≤ b.params.rxBufSize)
    (hmin : 4 ≤ c.toNat) (hmax : c.toNat ≤ b.respLen.toNat) (hv : v.length = bodyLength b.params c)
    (hr : b.params.respReadMode = .continue ∧ r = c :: v ∨ b.params.respReadMode = .restart ∧ r = v ∧ v.head? = some c) :
    EndsIn (Turn.replies (BusReply.delivers v)) 15
      (((b.bodyAwaited f c).afterBus (readHead b.devAddr b.ioaddr) .addrR).onLine q (.execute w (.readBody c .rdbytes)))
      (FrameEnds b c r (b.countTrace f [c] ++ readTrace b.devAddr b.ioaddr (bodyLength b.params c) v) 1) := by
  have hread := execute_commandRead_body q (b.bodyAwaited f c) w c
  refine ((hread.leadsTo_lenCheck fun r hr => (BusReply.delivers_iff.1 hr).2).trans (hread.leadsTo_some hv)).endsIn (m := 9) ?_
  have hstate := State.exchanged_afterBus (b := b) (m := b.storeIn .rxbuf 0 [c] b.mem) (rx := 1#8) (ph := .readBody) (x := .idle)
    (a := 1) (tr := b.countTrace f [c]) (readTrace b.devAddr b.ioaddr (bodyLength b.params c) v) .idle
  have hend := execute_endsIn_of_bodyBytes (R := BusReply.delivers v) (q := q) (w := w) (a := 1)
    (z := b.countTrace f [c] ++ readTrace b.devAddr b.ioaddr (bodyLength b.params c) v) hrsp hsize hmin hmax hv hr
  rw [← hstate] at hend
  exact hend

/-- EXECUTE granted everything, up to the frame's check. -/
theorem exec_execute_granted {s : State} {first later : List Turn} (hstart : s.atStart = true) (hp : s.params.legal = true)
    (hts : s.tstate ≠ .failed) (hmin : 4 ≤ c.toNat) (hmax : c.toNat ≤ s.respLen.toNat)
    (hsize : s.respLen.toNat ≤ s.params.rxBufSize) (hf : s.commandFrame = some f) (hv : v.length = bodyLength s.params c)
    (hr : s.params.respReadMode = .continue ∧ r = c :: v ∨ s.params.respReadMode = .restart ∧ r = v ∧ v.head? = some c)
    (hturns : s.turns = first ++ later) (hfirst : first.all (Turn.replies (BusReply.delivers [c])) = true)
    (hlater : later.all (Turn.replies (BusReply.delivers v)) = true) (hlow : 3 * f.length + 52 ≤ first.length)
    (hhigh : first.length ≤ 3 * f.length + 79) (hlong : 50 ≤ later.length) :
    ∃ t left, exec (.execute w) s = .next { t with turns := left } ∧
      FrameEnds (s.readyToWrite f w) c r ((s.readyToWrite f w).countTrace f [c] ++
        readTrace (s.readyToWrite f w).devAddr (s.readyToWrite f w).ioaddr (bodyLength (s.readyToWrite f w).params c) v) 1 t := by
  obtain ⟨q, hq, hpos⟩ := State.atStart_iff.1 hstart
  have hwrite := execute_leadsTo_write (R := BusReply.delivers [c]) (q := q) (w := w) hts (by omega) hsize hf
  have hslice := State.readyToWrite_bufSlice (w := w) hp hf
  have hready := s.readyToWrite_eq f w
  generalize s.readyToWrite f w = b at hwrite hslice hready ⊢
  obtain ⟨hparams, hresp, hrsp, hseq⟩ : b.params = s.params ∧ b.respLen = s.respLen ∧ b.rsp = noFrame ∧
      b.seq = s.seq := by
    rw [hready]
    exact ⟨rfl, rfl, rfl, rfl⟩
  rw [← hparams] at hv hr hsize
  rw [← hresp] at hmax hsize
  have hgrants : ∀ v r, BusReply.delivers v r = true → r.grants = true := fun v r hr => (BusReply.delivers_iff.1 hr).1
  have hmoves : beforeWrite w = 9 ∨ beforeWrite w = 11 := by cases w <;> simp [beforeWrite]
  obtain ⟨t, left, hrun, ht⟩ := (hwrite.trans (execute_leadsTo_counting (hseq.trans hq) hslice)).runTurns_append
    (execute_leadsTo_bodyData (R := BusReply.grants) (fun _ => id) hmin hmax)
    (execute_endsIn_of_bodyData hrsp hsize hmin hmax hv hr)
    (Turn.replies_mono (hgrants [c])) (Turn.replies_mono (hgrants v)) hfirst hlater (by omega) (by omega) (by omega)
  rw [← hturns] at hrun
  exact ⟨t, left, by rw [exec_eq, State.runCommand_atStart hq hpos, State.goto_eq_onLine hq, hrun], ht⟩

end

/-- Settles O29: the moves up to the data of the count read, those between the data of the two reads, and those after. -/
theorem executeRunsOneExchange : Obligations.ExecuteRunsOneExchange := by
  intro s w c f r first later hstart hp hidle hmin hmax hsize hf hlen hhead hturns hfirst hlater hlow hhigh hlong
  obtain ⟨hv, hr⟩ := drop_bodyLength (p := s.params) hlen hhead hmin
  generalize r.drop (c.toNat - bodyLength s.params c) = v at hlater hv hr ⊢
  obtain ⟨_, left, hexec, m, hstores, rfl⟩ := exec_execute_granted (w := w) hstart hp (by simp [hidle]) hmin hmax hsize hf hv hr
    hturns hfirst hlater hlow hhigh hlong
  refine ⟨_, s.readyToWrite f w, hexec, State.readyToWrite_storesAt hp hf, hstores, ?_⟩
  have hcount : BitVec.ofNat 8 c.toNat = c := by simp
  rw [State.readyToWrite_executed, State.countTrace_readyToWrite, State.readyToWrite_eq, hidle]
  simp only [List.append_assoc, Option.map_some, Option.getD_some, hcount]
  rfl

end Sys2Proof.Machine
end
